-- ==== Sys2Proof/Word.lean ====
section
/-!
DEFINITION. The widths of the I3003 core (00_scope R7, R12; 30_encoding R71): a Word is 16 bits, bit 0 least
significant, read as an unsigned number; an instruction word is 32 bits; a register field of it is 4 bits.
-/

namespace Sys2Proof

/-- A Bit: false is written 0 and true 1 (40 R100). -/
abbrev Bit := Bool

/-- A Word: the unit of a register and of a memory cell (00 R12). -/
abbrev Word := BitVec 16

/-- An instruction word (30 R71). -/
abbrev InstrWord := BitVec 32

/-- A register operand as the instruction carries it: a number 0 to 15, of which 0 to 7 name registers (30 R74). -/
abbrev RegField := BitVec 4

end Sys2Proof
end

