-- ==== Sys2Proof/Machine/Gates.lean ====
section
/-!
DEFINITION. The bit logic primitives and the adder cells (40_bit_logic_and_adders R100 to R114), total functions on Bits
by their truth tables. None is an instruction; AND, OR and XOR are used by the adders and the ALU, the rest feed nothing
(R111). NAND and NOR carry the meaning R105 and R106 mark as general knowledge (log 19).
-/

namespace Sys2Proof.Machine

/-- R101 -/
def gateAnd : Bit → Bit → Bit
  | true, true => true
  | true, false => false
  | false, _ => false

/-- R102 -/
def gateOr : Bit → Bit → Bit
  | false, false => false
  | false, true => true
  | true, _ => true

/-- R103 -/
def gateXor : Bit → Bit → Bit
  | true, false => true
  | false, true => true
  | true, true => false
  | false, false => false

/-- R104 -/
def gateNot : Bit → Bit
  | true => false
  | false => true

/-- R105 -/
def gateNand (a b : Bit) : Bit := gateNot (gateAnd a b)

/-- R106 -/
def gateNor (a b : Bit) : Bit := gateNot (gateOr a b)

/-- R107, under its one name that the spec gives -/
def gateXnor (a b : Bit) : Bit := gateNot (gateXor a b)

/-- R108: not symmetric -/
def gateXand (a b : Bit) : Bit := gateAnd a (gateNot b)

/-- R109: the implication of b by a -/
def gateNxand (a b : Bit) : Bit := gateNot (gateAnd a (gateNot b))

/-- The two outputs of an adder cell. -/
structure SumCarry where
  sum : Bit
  carry : Bit
deriving DecidableEq, Repr

/-- R112 -/
def halfAdder (a b : Bit) : SumCarry := ⟨gateXor a b, gateAnd a b⟩

/-- R113: two half adders, the carry the OR of theirs -/
def fullAdder (a b cin : Bit) : SumCarry :=
  let first := halfAdder a b
  let second := halfAdder first.sum cin
  ⟨second.sum, gateOr first.carry second.carry⟩

end Sys2Proof.Machine
end

