-- ==== Sys2Proof/Config.lean ====
section
/-!
DEFINITION. What an implementation fixes or the spec leaves as a parameter (00_scope R8, R9; 92 D8, D10), at the values
`State.reset` takes. No meaning reads this file: MEM_WORDS is a field of the state, and the statements about reset are
over every RESET_REGS and RESET_MEM.
-/

namespace Sys2Proof

/-- The number of general registers (00 R7). -/
abbrev Config.nregs : Nat := 8

/-- The largest capacity the spec allows (00 R8): 1 <= MEM_WORDS <= 65535. -/
def Config.maxMemWords : Nat := 65535

/-- DESIGN CHOICE (log 2): the capacity `State.reset` is built with; the spec leaves it to the host. -/
def Config.memWords : Nat := Config.maxMemWords

/-- DESIGN CHOICE (log 3), unsafe: the RESET_REGS of `State.reset`; the spec leaves them open (10 R37). -/
def Config.resetRegs : Vector Word Config.nregs := Vector.replicate Config.nregs 0#16

end Sys2Proof
end

