-- ==== Sys2Proof/Syntax.lean ====
section
/-!
DEFINITION. The instructions: one constructor for each row of spec/opcode_table.json, the 16 core operations
(30_encoding R70, operands as R73 and R74 give them) and the 8 port functions (R82, R83), which are no core instructions
(90 C1) and carry the operands of their port.
-/

namespace Sys2Proof

inductive Instr where
  /-- `MOV(reg, value)` (42 R140). -/
  | mov (reg : RegField) (value : Word)
  /-- `JMP(address)` (43 R145). -/
  | jmp (address : Word)
  /-- `JZ()` (43 R148). -/
  | jz
  /-- `JC()` (43 R150). -/
  | jc
  /-- `PUSH(reg)` (44 R155). -/
  | push (reg : RegField)
  /-- `POP(reg)` (44 R158). -/
  | pop (reg : RegField)
  /-- `ADD(reg1, reg2)` (45 R165). -/
  | add (reg1 reg2 : RegField)
  /-- `SUB(reg1, reg2)` (45 R166). -/
  | sub (reg1 reg2 : RegField)
  /-- `XCHG(reg1, reg2)` (46 R170). -/
  | xchg (reg1 reg2 : RegField)
  /-- `CMPXCHG(reg1, reg2)` (46 R173). -/
  | cmpxchg (reg1 reg2 : RegField)
  /-- `LOCK()` (47 R180). -/
  | lock
  /-- `CLI()` (47 R184). -/
  | cli
  /-- `STI()` (47 R186). -/
  | sti
  /-- `SFENCE()` (47 R187). -/
  | sfence
  /-- `LFENCE()` (47 R188). -/
  | lfence
  /-- `MFENCE()` (47 R189). -/
  | mfence
  /-- ALU port, mode 000 (30 R82, 41 R123). -/
  | aluAdd (a b : Word)
  /-- ALU port, mode 100 (30 R82, 41 R123). -/
  | aluSub (a b : Word)
  /-- ALU port, modes 010, 011, 110, 111: the two flags multiply overrides are kept (30 R82, 41 R122). -/
  | aluMul (a b : Word) (subtract divide : Bool)
  /-- ALU port, modes 001, 101: the flag divide overrides is kept (30 R82, 41 R126). -/
  | aluDiv (a b : Word) (subtract : Bool)
  /-- Unary port, selector 0 (30 R83, 41 R133). -/
  | inc (a : Word)
  /-- Unary port, selector 1 (30 R83, 41 R134). -/
  | dec (a : Word)
  /-- Unary port, selector 2 (30 R83, 41 R135). -/
  | shl (a : Word)
  /-- Unary port, selector 3 (30 R83, 41 R136). -/
  | shr (a : Word)
deriving DecidableEq, Repr

end Sys2Proof
end

