-- ==== Sys2Proof/WellFormed.lean ====
section
/-!
DEFINITION. Well-formed instructions: every register operand names one of `x[0]` to `x[7]` (10_state R23, 30_encoding
R74). Nothing else can be wrong with an `Instr`: immediates and port operands take every Word (R73, 41 R120).
-/

namespace Sys2Proof

/-- A register field that names a register. -/
def RegField.wf (r : RegField) : Bool := decide (r.toNat < 8)

/-- Every register operand of the instruction names a register. -/
def Instr.wellFormed : Instr → Bool
  | .mov reg _ => RegField.wf reg
  | .jmp _ => true
  | .jz => true
  | .jc => true
  | .push reg => RegField.wf reg
  | .pop reg => RegField.wf reg
  | .add reg1 reg2 => RegField.wf reg1 && RegField.wf reg2
  | .sub reg1 reg2 => RegField.wf reg1 && RegField.wf reg2
  | .xchg reg1 reg2 => RegField.wf reg1 && RegField.wf reg2
  | .cmpxchg reg1 reg2 => RegField.wf reg1 && RegField.wf reg2
  | .lock => true
  | .cli => true
  | .sti => true
  | .sfence => true
  | .lfence => true
  | .mfence => true
  | .aluAdd _ _ => true
  | .aluSub _ _ => true
  | .aluMul _ _ _ _ => true
  | .aluDiv _ _ _ => true
  | .inc _ => true
  | .dec _ => true
  | .shl _ => true
  | .shr _ => true

end Sys2Proof
end

