-- ==== Sys2Proof/Decode.lean ====
section
/-!
DEFINITION. Decoding and encoding (30_encoding R71 to R79, R82, R83). An instruction word is decoded by the four checks
of R76 in their order; a use of the ALU port or of the unary port is decoded by its selector, which is total.
-/

namespace Sys2Proof

/-! ### The opcode map (R72, R75) -/

/-- The 16 opcodes that are not reserved (R75). -/
inductive Opcode where
  | mov | jmp | jz | jc | push | pop | add | sub | xchg | cmpxchg | lock | cli | sti | sfence | lfence | mfence
deriving DecidableEq, Repr

/-- The five operand shapes (R72). -/
inductive Shape where
  | z | i | r | rr | ri
deriving DecidableEq, Repr

/-- The opcode number of an operation (R75). -/
def opcodeNumber : Opcode → BitVec 8
  | .mov => 0x01#8 | .jmp => 0x02#8 | .jz => 0x03#8 | .jc => 0x04#8
  | .push => 0x05#8 | .pop => 0x06#8 | .add => 0x07#8 | .sub => 0x08#8
  | .xchg => 0x09#8 | .cmpxchg => 0x0A#8 | .lock => 0x0B#8 | .cli => 0x0C#8
  | .sti => 0x0D#8 | .sfence => 0x0E#8 | .lfence => 0x0F#8 | .mfence => 0x10#8

/-- The operation an opcode number selects; `none` for the reserved 0x00 and 0x11 to 0xFF (R75, R77). -/
def opcodeOf (n : BitVec 8) : Option Opcode :=
  match n.toNat with
  | 1 => some .mov | 2 => some .jmp | 3 => some .jz | 4 => some .jc
  | 5 => some .push | 6 => some .pop | 7 => some .add | 8 => some .sub
  | 9 => some .xchg | 10 => some .cmpxchg | 11 => some .lock | 12 => some .cli
  | 13 => some .sti | 14 => some .sfence | 15 => some .lfence | 16 => some .mfence
  | _ => none

/-- The operand shape of an operation (R72). -/
def opcodeShape : Opcode → Shape
  | .mov => .ri
  | .jmp => .i
  | .jz => .z | .jc => .z
  | .push => .r | .pop => .r
  | .add => .rr | .sub => .rr | .xchg => .rr | .cmpxchg => .rr
  | .lock => .z | .cli => .z | .sti => .z | .sfence => .z | .lfence => .z | .mfence => .z

def shapeUsesRa : Shape → Bool
  | .r => true | .rr => true | .ri => true | .i => false | .z => false

def shapeUsesRb : Shape → Bool
  | .rr => true | .r => false | .ri => false | .i => false | .z => false

def shapeUsesImm : Shape → Bool
  | .i => true | .ri => true | .r => false | .rr => false | .z => false

/-! ### The fields of an instruction word (R71) -/

def opField (w : InstrWord) : BitVec 8 := w.extractLsb' 24 8
def raField (w : InstrWord) : RegField := w.extractLsb' 20 4
def rbField (w : InstrWord) : RegField := w.extractLsb' 16 4
def immField (w : InstrWord) : Word := w.extractLsb' 0 16

/-- `instr = {opcode, ra, rb, imm16}` (R71). -/
def packWord (op : BitVec 8) (ra rb : RegField) (imm : Word) : InstrWord := op ++ ra ++ rb ++ imm

/-! ### Decoding an instruction word (R76) -/

/-- The two faults a word can decode to (R76). -/
inductive DecodeFault where
  /-- a reserved opcode, or a non-zero field the shape does not use (R77, 60 R204) -/
  | illegalInstruction
  /-- a register field the shape uses holds 8 to 15 (R74, 60 R205) -/
  | invalidRegisterIndex
deriving DecidableEq, Repr

/-- Check 2 of R76: every field the shape does not use is zero. -/
def unusedFieldsZero (sh : Shape) (w : InstrWord) : Bool :=
  (shapeUsesRa sh || raField w == 0#4) && (shapeUsesRb sh || rbField w == 0#4) &&
    (shapeUsesImm sh || immField w == 0#16)

/-- Check 3 of R76: every register field the shape uses names a register. -/
def usedRegistersValid (sh : Shape) (w : InstrWord) : Bool :=
  (!shapeUsesRa sh || RegField.wf (raField w)) && (!shapeUsesRb sh || RegField.wf (rbField w))

/-- The abstract instruction of an operation and its fields (R70, R75). -/
def instrOfFields (op : Opcode) (ra rb : RegField) (imm : Word) : Instr :=
  match op with
  | .mov => .mov ra imm
  | .jmp => .jmp imm
  | .jz => .jz
  | .jc => .jc
  | .push => .push ra
  | .pop => .pop ra
  | .add => .add ra rb
  | .sub => .sub ra rb
  | .xchg => .xchg ra rb
  | .cmpxchg => .cmpxchg ra rb
  | .lock => .lock
  | .cli => .cli
  | .sti => .sti
  | .sfence => .sfence
  | .lfence => .lfence
  | .mfence => .mfence

/-- `decode` of R76: total, the first check that fails decides. -/
def decode (w : InstrWord) : Except DecodeFault Instr :=
  match opcodeOf (opField w) with
  | none => .error .illegalInstruction
  | some op =>
    if unusedFieldsZero (opcodeShape op) w then
      if usedRegistersValid (opcodeShape op) w then
        .ok (instrOfFields op (raField w) (rbField w) (immField w))
      else .error .invalidRegisterIndex
    else .error .illegalInstruction

/-! ### The two combinational ports (R82, R83) -/

/-- One use of a combinational port: what stands on its input pins (10 R34). -/
inductive PortUse where
  /-- `alu_mode`, `alu_a`, `alu_b` -/
  | alu (mode : BitVec 3) (a b : Word)
  /-- `un_fn`, `un_a` -/
  | un (fn : BitVec 2) (a : Word)
deriving DecidableEq, Repr

/-- `alu_mode = {subtract, multiply, divide}` (R82). -/
def aluModeOf (subtract multiply divide : Bool) : BitVec 3 :=
  BitVec.ofBool subtract ++ BitVec.ofBool multiply ++ BitVec.ofBool divide

def modeSubtract (mode : BitVec 3) : Bool := mode.getLsbD 2
def modeMultiply (mode : BitVec 3) : Bool := mode.getLsbD 1
def modeDivide (mode : BitVec 3) : Bool := mode.getLsbD 0

/-- The operation a port's selector asks for: all 8 modes (R82) and all 4 unary selectors (R83) are legal. -/
def decodePortUse : PortUse → Instr
  | .alu mode a b =>
    if modeMultiply mode then .aluMul a b (modeSubtract mode) (modeDivide mode)
    else if modeDivide mode then .aluDiv a b (modeSubtract mode)
    else if modeSubtract mode then .aluSub a b
    else .aluAdd a b
  | .un fn a =>
    match fn.toNat with
    | 0 => .inc a
    | 1 => .dec a
    | 2 => .shl a
    | _ => .shr a

/-! ### Encoding (R79) -/

/-- What carries an instruction into the block: a word on `instr`, or a use of one of the two ports. -/
inductive Encoded where
  | word (w : InstrWord)
  | port (u : PortUse)
deriving DecidableEq, Repr

/-- The words of the five shapes (R72, R79). -/
def wordZ (op : Opcode) : InstrWord := packWord (opcodeNumber op) 0#4 0#4 0#16
def wordI (op : Opcode) (imm : Word) : InstrWord := packWord (opcodeNumber op) 0#4 0#4 imm
def wordR (op : Opcode) (ra : RegField) : InstrWord := packWord (opcodeNumber op) ra 0#4 0#16
def wordRR (op : Opcode) (ra rb : RegField) : InstrWord := packWord (opcodeNumber op) ra rb 0#16
def wordRI (op : Opcode) (ra : RegField) (imm : Word) : InstrWord := packWord (opcodeNumber op) ra 0#4 imm

/-- `encode` of R79, and for the port functions the pins of R82 and R83. -/
def encode : Instr → Encoded
  | .mov reg value => .word (wordRI .mov reg value)
  | .jmp address => .word (wordI .jmp address)
  | .jz => .word (wordZ .jz)
  | .jc => .word (wordZ .jc)
  | .push reg => .word (wordR .push reg)
  | .pop reg => .word (wordR .pop reg)
  | .add reg1 reg2 => .word (wordRR .add reg1 reg2)
  | .sub reg1 reg2 => .word (wordRR .sub reg1 reg2)
  | .xchg reg1 reg2 => .word (wordRR .xchg reg1 reg2)
  | .cmpxchg reg1 reg2 => .word (wordRR .cmpxchg reg1 reg2)
  | .lock => .word (wordZ .lock)
  | .cli => .word (wordZ .cli)
  | .sti => .word (wordZ .sti)
  | .sfence => .word (wordZ .sfence)
  | .lfence => .word (wordZ .lfence)
  | .mfence => .word (wordZ .mfence)
  | .aluAdd a b => .port (.alu (aluModeOf false false false) a b)
  | .aluSub a b => .port (.alu (aluModeOf true false false) a b)
  | .aluMul a b subtract divide => .port (.alu (aluModeOf subtract true divide) a b)
  | .aluDiv a b subtract => .port (.alu (aluModeOf subtract false true) a b)
  | .inc a => .port (.un 0#2 a)
  | .dec a => .port (.un 1#2 a)
  | .shl a => .port (.un 2#2 a)
  | .shr a => .port (.un 3#2 a)

/-- The instruction an encoded form stands for. -/
def decodeEncoded : Encoded → Except DecodeFault Instr
  | .word w => decode w
  | .port u => .ok (decodePortUse u)

/-! ### The rows of spec/opcode_table.json, as the table gives them (R75, R76) -/

/-- A `CORE32` row: a word is this row's when its bits under `mask` are `pattern`. -/
structure TableRow where
  mnemonic : String
  pattern : InstrWord
  mask : InstrWord
deriving DecidableEq, Repr

/-- The 16 `CORE32` rows. -/
def coreRows : List TableRow :=
  [⟨"MOV", 0x01000000#32, 0xFF0F0000#32⟩, ⟨"JMP", 0x02000000#32, 0xFFFF0000#32⟩,
   ⟨"JZ", 0x03000000#32, 0xFFFFFFFF#32⟩, ⟨"JC", 0x04000000#32, 0xFFFFFFFF#32⟩,
   ⟨"PUSH", 0x05000000#32, 0xFF0FFFFF#32⟩, ⟨"POP", 0x06000000#32, 0xFF0FFFFF#32⟩,
   ⟨"ADD", 0x07000000#32, 0xFF00FFFF#32⟩, ⟨"SUB", 0x08000000#32, 0xFF00FFFF#32⟩] ++
  [⟨"XCHG", 0x09000000#32, 0xFF00FFFF#32⟩, ⟨"CMPXCHG", 0x0A000000#32, 0xFF00FFFF#32⟩,
   ⟨"LOCK", 0x0B000000#32, 0xFFFFFFFF#32⟩, ⟨"CLI", 0x0C000000#32, 0xFFFFFFFF#32⟩,
   ⟨"STI", 0x0D000000#32, 0xFFFFFFFF#32⟩, ⟨"SFENCE", 0x0E000000#32, 0xFFFFFFFF#32⟩,
   ⟨"LFENCE", 0x0F000000#32, 0xFFFFFFFF#32⟩, ⟨"MFENCE", 0x10000000#32, 0xFFFFFFFF#32⟩]

def rowMatches (row : TableRow) (w : InstrWord) : Bool := w &&& row.mask == row.pattern

/-! ### The opcode table's numbering of a row's bits -/

/-- What a table row's bits stand for. A row of 32 bits is an instruction word. The 3-bit and 2-bit rows of the two
ports have the same 8 bits when counted in whole bytes and no port in them, so (DESIGN CHOICE, log 12) a value 0 to 3
is the unary port's selector and 4 to 7 the ALU port's mode, unless exactly 3 bits are given, which only the ALU port
has. Operands are zero. -/
def tableEncoded (nbits w : Nat) : Option Encoded :=
  if 8 < nbits then some (.word (BitVec.ofNat 32 w))
  else if w < 4 && nbits != 3 then some (.port (.un (BitVec.ofNat 2 w) 0#16))
  else if w < 8 then some (.port (.alu (BitVec.ofNat 3 w) 0#16 0#16))
  else none

/-- The instruction the decoder reads from a table row's bits. -/
def decodeTableWord (nbits w : Nat) : Option Instr :=
  match tableEncoded nbits w with
  | none => none
  | some e => (decodeEncoded e).toOption

end Sys2Proof
end

