-- ==== Sys2Proof/Machine/State.lean ====
section
/-!
DEFINITION. The state (10_state R20 to R37), as plain data: the core's own state, the construction parameter MEM_WORDS,
the output ports as the last step drove them, and the inputs the environment holds. Nothing else exists (R33).
-/

namespace Sys2Proof.Machine

/-- The core's memory (20 R50, R51): the cells that are listed, a word address and its Word each, addresses strictly
rising, no cell listed that holds what an unlisted one reads as (`Memory.wf`). The unit is the Word: there are no bytes
(R54, 92 D15; log 4). -/
abbrev Memory := List (Nat × Word)

/-- What a step sends out (00 R11): nothing, the bit of JZ or JC (43 R149), or a notification code (47 R190). -/
inductive Out where
  | none
  | pred (b : Bit)
  | note (code : BitVec 3)
deriving DecidableEq, Repr

/-- The causes of 60 R202, other than 0 (none). -/
inductive FaultCause where
  | illegalInstruction
  | invalidRegisterIndex
  | memoryIndexOutOfRange
deriving DecidableEq, Repr

/-- One core with its environment. -/
structure State where
  /-- `x[0]` to `x[7]` (10 R20) -/
  x : Vector Word Config.nregs
  /-- the stack pointer: the next free cell (10 R28) -/
  sp : Word
  /-- ZF (10 R24): no instruction writes it (R25) -/
  zf : Bit
  /-- CF (10 R24): no instruction writes it (R25) -/
  cf : Bit
  /-- the memory's cells (10 R31) -/
  mem : Memory
  /-- FAULT, sticky (10 R32) -/
  fault : Bit
  /-- CAUSE (10 R32, 60 R202) -/
  cause : BitVec 8
  /-- FINSTR, the word whose step faulted (10 R32) -/
  finstr : InstrWord
  /-- MEM_WORDS, fixed at construction (00 R8; log 2) -/
  memWords : Nat
  /-- `pred_out`, `pred_valid` and `note_out` as the last step drove them (10 R34; log 6) -/
  out : Out
  /-- `instr_done` as the last step drove it (10 R34; log 6) -/
  instrDone : Bit
  /-- `lock_req` (10 R34, 47 R180) -/
  lockReq : Bit
  /-- the sequencer's script (70 R233; log 1) -/
  script : List InstrWord
  /-- the sequencer's index into the script (70 R233; log 1) -/
  k : Nat
  /-- LOCK_GRANT: the arbiter's next answers on `lock_gnt`, one for each time LOCK asks (47 R182; log 7) -/
  lockGnts : List Bit
  /-- the level of `lock_gnt` once the listed answers are used up (47 R182; log 7) -/
  lockGntRest : Bit
  /-- input pin `alu_a` (10 R34; log 11) -/
  aluA : Word
  /-- input pin `alu_b` -/
  aluB : Word
  /-- input pins `alu_mode` -/
  aluMode : BitVec 3
  /-- input pin `un_a` -/
  unA : Word
  /-- input pins `un_fn` -/
  unFn : BitVec 2
  /-- uses of the two combinational ports the host has asked for, oldest first (60 R224; log 10) -/
  portUses : List PortUse
deriving DecidableEq, Repr

/-- Why a step of the model stops. -/
inductive Fault where
  /-- Raised by `step` when FAULT is 1 and no port use is pending: a faulted core takes no step (60 R209, 93 U21). Safe:
  the spec says no step exists, and nothing further is proved about such a run (92 D6). -/
  | halted
deriving DecidableEq, Repr

/-- Why an instruction has no meaning. -/
inductive Refusal where
  /-- Raised only by an arm of `exec` whose instruction is not modelled yet; no arm is so. Safe: nothing is claimed. -/
  | notModelled (mnemonic : String)
deriving DecidableEq, Repr

/-- The machine right after reset (10 R37, 70 R230, R231): `sp`, ZF, CF, FAULT, CAUSE and FINSTR are 0, the outputs are
idle, the sequencer stands at its first word. The registers, the memory and MEM_WORDS are open in the spec and stand here
at named values (log 2, 3, 5); the environment's inputs are empty or idle (log 7, 10, 11, 16). -/
def State.reset : State where
  x := Config.resetRegs
  sp := 0#16
  zf := false
  cf := false
  mem := []
  fault := false
  cause := 0#8
  finstr := 0#32
  memWords := Config.memWords
  out := .none
  instrDone := false
  lockReq := false
  script := []
  k := 0
  lockGnts := []
  lockGntRest := true
  aluA := 0#16
  aluB := 0#16
  aluMode := 0#3
  unA := 0#16
  unFn := 0#2
  portUses := []

end Sys2Proof.Machine
end

