-- ==== Sys2Proof/Machine/Ops.lean ====
section
/-!
DEFINITION. The named operations over memory, registers and output ports (20_memory R52; 10_state R34), and taking a
fault (60_exceptions R203), the one shared operation every fault goes through. There is no return from a fault (R209).
-/

namespace Sys2Proof.Machine

/-! ### Memory (20 R52) -/

/-- DESIGN CHOICE (log 5), unsafe: what a cell reads as that the list does not hold. -/
def Memory.unlisted : Word := 0#16

/-- `MemRead(a, 1)` (20 R52). -/
def Memory.read : Memory → Nat → Word
  | [], _ => Memory.unlisted
  | (b, v) :: rest, a => if a = b then v else Memory.read rest a

/-- A cell in front of a list, left out when it holds what an unlisted cell reads as. -/
def Memory.cons (a : Nat) (v : Word) (m : Memory) : Memory :=
  if v = Memory.unlisted then m else (a, v) :: m

/-- `MemWrite(a, 1, v)` (20 R52): that one cell, all others unchanged. -/
def Memory.write : Memory → Nat → Word → Memory
  | [], a, v => Memory.cons a v []
  | (b, u) :: rest, a, v =>
    if a < b then Memory.cons a v ((b, u) :: rest)
    else if a = b then Memory.cons a v rest
    else (b, u) :: Memory.write rest a v

/-- Every listed address is above `lo` and the list is in canonical form from there on. -/
def Memory.wfAbove : Nat → Memory → Bool
  | _, [] => true
  | lo, (a, v) :: rest => decide (lo ≤ a) && v != Memory.unlisted && Memory.wfAbove (a + 1) rest

/-- The canonical form: addresses strictly rising, no cell listed that reads as an unlisted one. -/
def Memory.wf (m : Memory) : Bool := Memory.wfAbove 0 m

/-- Every listed cell is one of the memory's: its address is below MEM_WORDS (20 R51). -/
def Memory.within (words : Nat) (m : Memory) : Bool := m.all fun c => decide (c.1 < words)

/-! ### Registers and the stack pointer (10 R21, R28) -/

/-- `x[i]` (00 R13). -/
def State.readReg (s : State) (i : Fin 8) : Word := s.x[i.val]'i.isLt

/-- `x[i] <- v` (00 R13). -/
def State.writeReg (s : State) (i : Fin 8) (v : Word) : State := { s with x := s.x.set i.val v i.isLt }

/-- `sp <- v` (00 R13). -/
def State.writeSp (s : State) (v : Word) : State := { s with sp := v }

/-- The Word in the memory's cell `a`. -/
def State.readMem (s : State) (a : Nat) : Word := Memory.read s.mem a

/-- `MemWrite(a, 1, v)` on the state. -/
def State.writeMem (s : State) (a : Nat) (v : Word) : State := { s with mem := Memory.write s.mem a v }

/-! ### The outputs of a step (10 R34) -/

/-- The end of a completed step: its output, `instr_done` signalled, `lock_req` down. -/
def State.complete (s : State) (o : Out) : State := { s with out := o, instrDone := true, lockReq := false }

/-- `pred_out` (10 R34): the bit JZ or JC sends. DESIGN CHOICE (log 25), unsafe: 0 wherever `pred_valid` is 0 (after reset,
idle, in a fault and in every other step), where the spec gives it no level. -/
def State.predOut (s : State) : Bit :=
  match s.out with
  | .pred b => b
  | .none => false
  | .note _ => false

/-- `pred_valid`: 1 only after a step that executed JZ or JC (10 R34). -/
def State.predValid (s : State) : Bit :=
  match s.out with
  | .pred _ => true
  | .none => false
  | .note _ => false

/-- `note_out`: 0 unless the step was a stub's (10 R34, 47 R190). -/
def State.noteOut (s : State) : BitVec 3 :=
  match s.out with
  | .note c => c
  | .none => 0#3
  | .pred _ => 0#3

/-! ### Taking a fault (60 R202, R203) -/

/-- The code in CAUSE (60 R202). -/
def causeCode : FaultCause → BitVec 8
  | .illegalInstruction => 1#8
  | .invalidRegisterIndex => 2#8
  | .memoryIndexOutOfRange => 3#8

/-- The cause of a word that does not decode (60 R204, R205). -/
def decodeFaultCause : DecodeFault → FaultCause
  | .illegalInstruction => .illegalInstruction
  | .invalidRegisterIndex => .invalidRegisterIndex

/-- `raise F(w)` (60 R203): FAULT, CAUSE and FINSTR are written, the step has no output, `instr_done` is signalled, and
nothing else of the core changes. -/
def State.raise (s : State) (f : FaultCause) (w : InstrWord) : State :=
  { s with fault := true, cause := causeCode f, finstr := w, out := .none, instrDone := true, lockReq := false }

end Sys2Proof.Machine
end

