-- ==== Sys2Proof/Machine/Alu.lean ====
section
/-!
DEFINITION. The ALU and the unary functions (41_alu R120 to R139) as pure functions, and the meanings of the eight port
rows: a use of a port puts its selector and operands on the port's input pins, and the port's output is a function of
the pins alone (10_state R34, R139; log 11).
-/

namespace Sys2Proof.Machine

/-! ### The ripple chain (41 R123, 40 R115) -/

/-- The chain after its first `n` stages: the sum bits made so far and the carry into stage `n`. -/
structure ChainState where
  y : Word
  carry : Bit
deriving DecidableEq, Repr

/-- `Y` with bit `i` set to `b`, where it was 0. -/
def placeBit (y : Word) (i : Nat) (b : Bit) : Word := if b then y ||| (1#16 <<< i) else y

/-- Stages 0 to `n - 1`: stage `i` adds A's bit, B's bit XOR `subtract`, and the carry; the first carry is `subtract`. -/
def rippleChain (a b : Word) (subtract : Bit) : Nat → ChainState
  | 0 => ⟨0#16, subtract⟩
  | i + 1 =>
    let before := rippleChain a b subtract i
    let cell := fullAdder (a.getLsbD i) (gateXor (b.getLsbD i) subtract) before.carry
    ⟨placeBit before.y i cell.sum, cell.carry⟩

/-- `AddSub` (R123): all 16 stages, the last carry dropped. -/
def addSub (a b : Word) (subtract : Bit) : Word := (rippleChain a b subtract 16).y

/-- `c[16]` (R125): computed and thrown away; no port, flag or instruction reads it. -/
def carryOut (a b : Word) (subtract : Bit) : Bit := (rippleChain a b subtract 16).carry

/-! ### Multiply, divide, the ALU (41 R120 to R127) -/

/-- R122 -/
def mulWord (a b : Word) : Word := BitVec.ofNat 16 (a.toNat * b.toNat)

/-- R126, R127 -/
def divWord (a b : Word) : Word := if b.toNat = 0 then 0#16 else BitVec.ofNat 16 (a.toNat / b.toNat)

/-- `ALU(A, B, subtract, multiply, divide)` with the precedence of R121 (R120). -/
def alu (a b : Word) (subtract multiply divide : Bit) : Word :=
  if multiply then mulWord a b else if divide then divWord a b else addSub a b subtract

/-! ### Unary functions (41 R133 to R136) -/

/-- R133 -/
def incWord (a : Word) : Word := alu a 1#16 false false false

/-- R134 -/
def decWord (a : Word) : Word := alu a 1#16 true false false

/-- R135 -/
def shlWord (a : Word) : Word := a <<< 1

/-- R136 -/
def shrWord (a : Word) : Word := a >>> 1

/-! ### The ports (10 R34, 41 R139) -/

/-- `alu_mode`, `alu_a`, `alu_b` driven by the host. -/
def State.driveAlu (s : State) (mode : BitVec 3) (a b : Word) : State := { s with aluMode := mode, aluA := a, aluB := b }

/-- `un_fn`, `un_a` driven by the host. -/
def State.driveUn (s : State) (fn : BitVec 2) (a : Word) : State := { s with unFn := fn, unA := a }

/-- `alu_y = ALU(alu_a, alu_b, alu_mode[2], alu_mode[1], alu_mode[0])` (R139). -/
def State.aluY (s : State) : Word :=
  alu s.aluA s.aluB (modeSubtract s.aluMode) (modeMultiply s.aluMode) (modeDivide s.aluMode)

/-- `un_y` = INC, DEC, SHL or SHR of `un_a` for `un_fn` = 0, 1, 2, 3 (R139). -/
def State.unY (s : State) : Word :=
  match s.unFn.toNat with
  | 0 => incWord s.unA
  | 1 => decWord s.unA
  | 2 => shlWord s.unA
  | _ => shrWord s.unA

/-! ### Meanings of the port rows (30 R82, R83) -/

/-- ALU.ADD: mode 000 (41 R123). -/
def execAluAdd (a b : Word) (s : State) : Host.Outcome State Fault Refusal :=
  .next (s.driveAlu (aluModeOf false false false) a b)

/-- ALU.SUB: mode 100 (41 R123). -/
def execAluSub (a b : Word) (s : State) : Host.Outcome State Fault Refusal :=
  .next (s.driveAlu (aluModeOf true false false) a b)

/-- ALU.MUL: modes x1x (41 R122). -/
def execAluMul (a b : Word) (subtract divide : Bool) (s : State) : Host.Outcome State Fault Refusal :=
  .next (s.driveAlu (aluModeOf subtract true divide) a b)

/-- ALU.DIV: modes x01 (41 R126). -/
def execAluDiv (a b : Word) (subtract : Bool) (s : State) : Host.Outcome State Fault Refusal :=
  .next (s.driveAlu (aluModeOf subtract false true) a b)

/-- INC: selector 0 (41 R133). -/
def execInc (a : Word) (s : State) : Host.Outcome State Fault Refusal := .next (s.driveUn 0#2 a)

/-- DEC: selector 1 (41 R134). -/
def execDec (a : Word) (s : State) : Host.Outcome State Fault Refusal := .next (s.driveUn 1#2 a)

/-- SHL: selector 2 (41 R135). -/
def execShl (a : Word) (s : State) : Host.Outcome State Fault Refusal := .next (s.driveUn 2#2 a)

/-- SHR: selector 3 (41 R136). -/
def execShr (a : Word) (s : State) : Host.Outcome State Fault Refusal := .next (s.driveUn 3#2 a)

end Sys2Proof.Machine
end

