-- ==== Sys2Proof/Machine/Operands.lean ====
section
/-!
DEFINITION. The operand forms (30_encoding R72 to R74). A register operand is a 4-bit number: 0 to 7 names a register, 8
to 15 raises InvalidRegisterIndex before any state changes (10_state R23, 60_exceptions R205, R208). An immediate is the
Word itself (R73), so it needs no operation.
-/

namespace Sys2Proof.Machine

/-- The register a field names, if it names one (30 R74). -/
def regIndex (r : RegField) : Option (Fin 8) :=
  if h : r.toNat < 8 then some ⟨r.toNat, h⟩ else none

/-- The field that names a register (30 R79: an index 0 to 7 written as a 4-bit number). -/
def regField (i : Fin 8) : RegField := BitVec.ofNat 4 i.val

/-- An instruction with one register operand, of word `w`. -/
def withReg (w : InstrWord) (r : RegField) (s : State) (body : Fin 8 → Host.Outcome State Fault Refusal) :
    Host.Outcome State Fault Refusal :=
  match regIndex r with
  | some i => body i
  | none => .next (s.raise .invalidRegisterIndex w)

/-- An instruction with two register operands, of word `w`: one bad field is enough (60 R205). -/
def withRegs (w : InstrWord) (r1 r2 : RegField) (s : State)
    (body : Fin 8 → Fin 8 → Host.Outcome State Fault Refusal) : Host.Outcome State Fault Refusal :=
  withReg w r1 s fun i => withReg w r2 s fun j => body i j

end Sys2Proof.Machine
end

