-- ==== Sys2Proof/Machine/Arith.lean ====
section
/-!
DEFINITION. The arithmetic instructions ADD and SUB (45_arithmetic R165 to R167), through the ALU's add and subtract
path. Both operands are read before the result is written.
-/

namespace Sys2Proof.Machine

/-- ADD (R165): `x[ra] <- ALU(x[ra], x[rb], 0, 0, 0)`. -/
def execAdd (reg1 reg2 : RegField) (s : State) : Host.Outcome State Fault Refusal :=
  withRegs (wordRR .add reg1 reg2) reg1 reg2 s fun r1 r2 =>
    .next ((s.writeReg r1 (alu (s.readReg r1) (s.readReg r2) false false false)).complete .none)

/-- SUB (R166): `x[ra] <- ALU(x[ra], x[rb], 1, 0, 0)`. -/
def execSub (reg1 reg2 : RegField) (s : State) : Host.Outcome State Fault Refusal :=
  withRegs (wordRR .sub reg1 reg2) reg1 reg2 s fun r1 r2 =>
    .next ((s.writeReg r1 (alu (s.readReg r1) (s.readReg r2) true false false)).complete .none)

end Sys2Proof.Machine
end

