-- ==== Sys2Proof/Machine/DataMove.lean ====
section
/-!
DEFINITION. Data movement: MOV (42_data_movement R140, R141). Immediate to register is its one form.
-/

namespace Sys2Proof.Machine

/-- MOV (R140): `x[ra] <- imm16`. -/
def execMov (reg : RegField) (value : Word) (s : State) : Host.Outcome State Fault Refusal :=
  withReg (wordRI .mov reg value) reg s fun r => .next ((s.writeReg r value).complete .none)

end Sys2Proof.Machine
end

