-- ==== Sys2Proof/Machine/Exchange.lean ====
section
/-!
DEFINITION. XCHG and CMPXCHG (46_exchange R170 to R175), on registers only, one transition each (R171), reporting
nothing (R174).
-/

namespace Sys2Proof.Machine

/-- XCHG (R170): `t <- x[ra]; x[ra] <- x[rb]; x[rb] <- t`. -/
def execXchg (reg1 reg2 : RegField) (s : State) : Host.Outcome State Fault Refusal :=
  withRegs (wordRR .xchg reg1 reg2) reg1 reg2 s fun r1 r2 =>
    .next (((s.writeReg r1 (s.readReg r2)).writeReg r2 (s.readReg r1)).complete .none)

/-- CMPXCHG (R173): if the two are equal, `x[ra] <- x[rb]`, the value it already holds; otherwise nothing. -/
def execCmpxchg (reg1 reg2 : RegField) (s : State) : Host.Outcome State Fault Refusal :=
  withRegs (wordRR .cmpxchg reg1 reg2) reg1 reg2 s fun r1 r2 =>
    if s.readReg r1 = s.readReg r2 then .next ((s.writeReg r1 (s.readReg r2)).complete .none)
    else .next (s.complete .none)

end Sys2Proof.Machine
end

