-- ==== Sys2Proof/Machine/Flags.lean ====
section
/-!
DEFINITION. The flags (10_state R24 to R26). No instruction writes one, so the only operations on them are the two reads
of JZ and JC and the host's preset (R35). The carry out of the adder chain goes nowhere (41_alu R125); it is computed in
Machine/Alu.lean for the record.
-/

namespace Sys2Proof.Machine

/-- ZF, as JZ reads it (43 R148). -/
def State.readZf (s : State) : Bit := s.zf

/-- CF, as JC reads it (43 R150). -/
def State.readCf (s : State) : Bit := s.cf

/-- The host's preset of both flags, between steps (10 R26, R35). -/
def State.presetFlags (s : State) (z c : Bit) : State := { s with zf := z, cf := c }

end Sys2Proof.Machine
end

