-- ==== Sys2Proof/Machine/JumpQuery.lean ====
section
/-!
DEFINITION. JMP and the jump-predicate queries JZ and JC (43_jump_and_predicates R145 to R150). None transfers control.
-/

namespace Sys2Proof.Machine

/-- JMP (R145): `sp <- imm16`, whatever the operand. -/
def execJmp (address : Word) (s : State) : Host.Outcome State Fault Refusal :=
  .next ((s.writeSp address).complete .none)

/-- JZ (R148): `out <- Pred(ZF)`. -/
def execJz (s : State) : Host.Outcome State Fault Refusal := .next (s.complete (.pred s.readZf))

/-- JC (R150): `out <- Pred(CF)`. -/
def execJc (s : State) : Host.Outcome State Fault Refusal := .next (s.complete (.pred s.readCf))

end Sys2Proof.Machine
end

