-- ==== Sys2Proof/Machine/Stack.lean ====
section
/-!
DEFINITION. The stack operations PUSH and POP (44_stack R155 to R159), the only ones that access memory (20_memory R53).
-/

namespace Sys2Proof.Machine

/-- PUSH (R155): write at `sp`, then add 1, when `sp < MEM_WORDS`; otherwise nothing. -/
def execPush (reg : RegField) (s : State) : Host.Outcome State Fault Refusal :=
  withReg (wordR .push reg) reg s fun r =>
    if s.sp.toNat < s.memWords then
      .next (((s.writeMem s.sp.toNat (s.readReg r)).writeSp (s.sp + 1#16)).complete .none)
    else .next (s.complete .none)

/-- POP (R158): subtract 1, then read at the new `sp`, when `sp > 0`; a read address at or above MEM_WORDS raises
MemoryIndexOutOfRange; at `sp == 0` nothing. -/
def execPop (reg : RegField) (s : State) : Host.Outcome State Fault Refusal :=
  withReg (wordR .pop reg) reg s fun r =>
    if 0 < s.sp.toNat then
      if s.memWords ≤ s.sp.toNat - 1 then .next (s.raise .memoryIndexOutOfRange (wordR .pop reg))
      else .next (((s.writeSp (s.sp - 1#16)).writeReg r (s.readMem (s.sp.toNat - 1))).complete .none)
    else .next (s.complete .none)

end Sys2Proof.Machine
end

