-- ==== Sys2Proof/Machine/Sync.lean ====
section
/-!
DEFINITION. The synchronisation stubs (47_sync_stubs R180 to R191). LOCK asks the arbiter and completes when granted;
the other five only send their notification. None changes any core state.
-/

namespace Sys2Proof.Machine

/-- What `lock_gnt` answers the next time LOCK asks (R182; log 7). -/
def State.lockGranted (s : State) : Bit :=
  match s.lockGnts with
  | [] => s.lockGntRest
  | g :: _ => g

/-- The answer has been given. -/
def State.takeLockAnswer (s : State) : State := { s with lockGnts := s.lockGnts.tail }

/-- The hold of a LOCK that is not granted (R182): `lock_req` stays up, the step has not completed, there is no output
and no fault. The sequencer presents the same word again (log 8). -/
def State.hold (s : State) : State := { s with out := .none, instrDone := false, lockReq := true }

/-- LOCK (R180 to R182). -/
def execLock (s : State) : Host.Outcome State Fault Refusal :=
  if s.lockGranted then .next (s.takeLockAnswer.complete .none) else .next s.takeLockAnswer.hold

/-- The codes on `note_out` (R190). -/
def noteCli : BitVec 3 := 1#3
def noteSti : BitVec 3 := 2#3
def noteSfence : BitVec 3 := 3#3
def noteLfence : BitVec 3 := 4#3
def noteMfence : BitVec 3 := 5#3

/-- CLI (R184): `out <- Note(1)`. -/
def execCli (s : State) : Host.Outcome State Fault Refusal := .next (s.complete (.note noteCli))

/-- STI (R186): `out <- Note(2)`. -/
def execSti (s : State) : Host.Outcome State Fault Refusal := .next (s.complete (.note noteSti))

/-- SFENCE (R187): `out <- Note(3)`. -/
def execSfence (s : State) : Host.Outcome State Fault Refusal := .next (s.complete (.note noteSfence))

/-- LFENCE (R188): `out <- Note(4)`. -/
def execLfence (s : State) : Host.Outcome State Fault Refusal := .next (s.complete (.note noteLfence))

/-- MFENCE (R189): `out <- Note(5)`. -/
def execMfence (s : State) : Host.Outcome State Fault Refusal := .next (s.complete (.note noteMfence))

end Sys2Proof.Machine
end

