-- ==== Sys2Proof/Machine/Dispatch.lean ====
section
/-!
DEFINITION. One arm for each constructor of Instr, each a call of its meaning.
-/

namespace Sys2Proof.Machine

def exec (i : Instr) (s : State) : Host.Outcome State Fault Refusal :=
  match i with
  | .mov reg value => Sys2Proof.Machine.execMov reg value s
  | .jmp address => Sys2Proof.Machine.execJmp address s
  | .jz => Sys2Proof.Machine.execJz s
  | .jc => Sys2Proof.Machine.execJc s
  | .push reg => Sys2Proof.Machine.execPush reg s
  | .pop reg => Sys2Proof.Machine.execPop reg s
  | .add reg1 reg2 => Sys2Proof.Machine.execAdd reg1 reg2 s
  | .sub reg1 reg2 => Sys2Proof.Machine.execSub reg1 reg2 s
  | .xchg reg1 reg2 => Sys2Proof.Machine.execXchg reg1 reg2 s
  | .cmpxchg reg1 reg2 => Sys2Proof.Machine.execCmpxchg reg1 reg2 s
  | .lock => Sys2Proof.Machine.execLock s
  | .cli => Sys2Proof.Machine.execCli s
  | .sti => Sys2Proof.Machine.execSti s
  | .sfence => Sys2Proof.Machine.execSfence s
  | .lfence => Sys2Proof.Machine.execLfence s
  | .mfence => Sys2Proof.Machine.execMfence s
  | .aluAdd a b => Sys2Proof.Machine.execAluAdd a b s
  | .aluSub a b => Sys2Proof.Machine.execAluSub a b s
  | .aluMul a b subtract divide => Sys2Proof.Machine.execAluMul a b subtract divide s
  | .aluDiv a b subtract => Sys2Proof.Machine.execAluDiv a b subtract s
  | .inc a => Sys2Proof.Machine.execInc a s
  | .dec a => Sys2Proof.Machine.execDec a s
  | .shl a => Sys2Proof.Machine.execShl a s
  | .shr a => Sys2Proof.Machine.execShr a s

end Sys2Proof.Machine
end

