-- ==== Sys2Proof/Machine/Sequencer.lean ====
section
/-!
DEFINITION. What the block meets next (10_state R27, R34; 70_reset_and_hazards R233, R237; 60_exceptions R209): the
pending use of a combinational port, or, for the core, the word the reference sequencer presents.
-/

namespace Sys2Proof.Machine

/-- What happens in the next step. -/
inductive Event where
  /-- a use of the ALU port or the unary port, and the state without it in the queue -/
  | port (i : Instr) (s : State)
  /-- the core is faulted: it takes no step (60 R209) -/
  | halted
  /-- the script is at its end: nothing is presented, the core idles (70 R237) -/
  | idle
  /-- the word presented does not decode (30 R76) -/
  | badWord (f : DecodeFault) (w : InstrWord)
  /-- the word presented decodes to an instruction (30 R76) -/
  | run (i : Instr)
deriving DecidableEq, Repr

/-- The word the sequencer presents: `w[k]`, nothing when `k` has reached the end (70 R233). -/
def State.presented (s : State) : Option InstrWord := s.script[s.k]?

/-- Pending uses of the ports come first (log 10): they are independent of the core and go on while FAULT is 1 (41 R139). -/
def State.nextEvent (s : State) : Event :=
  match s.portUses with
  | u :: rest => .port (decodePortUse u) { s with portUses := rest }
  | [] =>
    if s.fault then .halted
    else
      match s.presented with
      | none => .idle
      | some w =>
        match decode w with
        | .error f => .badWord f w
        | .ok i => .run i

/-- Nothing is presented: no output, no request, nothing completed (10 R34, 47 R190 "every idle time"). -/
def State.idleStep (s : State) : State := { s with out := .none, instrDone := false, lockReq := false }

/-- The sequencer after a step: on `instr_done` it goes on to the next word; a held LOCK is presented again (70 R233). -/
def State.advance (s : State) : State := if s.instrDone then { s with k := s.k + 1 } else s

/-- The sequencer after an instruction. -/
def advanceOutcome : Host.Outcome State Fault Refusal → Host.Outcome State Fault Refusal
  | .next t => .next t.advance
  | .fault f => .fault f
  | .refused r => .refused r

/-- A script of that one word, or that one use of a port, and nothing else pending: the next step runs it (log 16, 21). -/
def State.load (s : State) : Encoded → State
  | .word w => { s with script := [w], k := 0, portUses := [] }
  | .port u => { s with portUses := [u] }

end Sys2Proof.Machine
end

