-- ==== Sys2Proof/Machine/Step.lean ====
section
/-!
DEFINITION. One step (00_scope R10, R11): the next event of Machine/Sequencer.lean, through `exec` or the fault entry.
-/

namespace Sys2Proof.Machine

/-- One step of the block. Only a faulted core with no port use pending stops the model (60 R209). -/
def step (s : State) : Host.Outcome State Fault Refusal :=
  match s.nextEvent with
  | .port i t => exec i t
  | .halted => .fault .halted
  | .idle => .next s.idleStep
  | .badWord f w => .next (s.raise (decodeFaultCause f) w).advance
  | .run i => advanceOutcome (exec i s)

/-- `s` with the instruction of a table row's bits as the very next thing that happens (log 12, 16, 21). -/
def State.withFetchWord (s : State) (nbits w : Nat) : State :=
  match tableEncoded nbits w with
  | none => s
  | some e => s.load e

end Sys2Proof.Machine
end

