-- ==== Sys2Proof/Machine/HostMoves.lean ====
section
/-!
DEFINITION. What the host can do to the core (60_exceptions R224; 10_state R35; 70_reset_and_hazards R230): construct,
reset, preset between steps, use the ports, give the sequencer a script, answer `lock_req`. These moves are outside the
instruction set: `step` makes none of them (log 18).
-/

namespace Sys2Proof.Machine

/-- The host's moves (60 R224). Reading a field is no move: it changes nothing. -/
inductive HostMove where
  /-- assert `rst`; the registers and the memory come up with these contents (RESET_REGS, RESET_MEM) -/
  | reset (regs : Vector Word Config.nregs) (mem : Memory)
  /-- preset `x[r]` -/
  | presetReg (r : Fin 8) (v : Word)
  /-- preset `sp`, to any 16-bit value (60 R225) -/
  | presetSp (v : Word)
  /-- preset ZF and CF (10 R26) -/
  | presetFlags (z c : Bit)
  /-- preset a cell of the memory -/
  | presetMem (a : Nat) (v : Word)
  /-- give the sequencer a script, from its first word -/
  | present (words : List InstrWord)
  /-- use the ALU port or the unary port -/
  | usePort (u : PortUse)
  /-- the arbiter's answers: some listed ones, then a level for good -/
  | answerLock (answers : List Bit) (rest : Bit)
deriving DecidableEq, Repr

/-- The contents a memory of `words` cells can have: canonical, no cell outside (20 R51). -/
def memContents (words : Nat) (m : Memory) : Bool := Memory.wf m && Memory.within words m

/-- Reset (70 R230, R231): every field of the core's state at its reset value, MEM_WORDS not changed, the outputs idle,
the sequencer at its first word. The environment's inputs are not the core's and stay (log 22). -/
def State.applyReset (s : State) (regs : Vector Word Config.nregs) (mem : Memory) : State :=
  { s with
    x := regs, sp := 0#16, zf := false, cf := false, mem := mem
    fault := false, cause := 0#8, finstr := 0#32
    out := .none, instrDone := false, lockReq := false, k := 0 }

/-- Construct a core with an explicit memory capacity (60 R224, 00 R8): it comes up as reset leaves it. -/
def State.construct (words : Nat) (regs : Vector Word Config.nregs) (mem : Memory) : Option State :=
  if 1 ≤ words ∧ words ≤ Config.maxMemWords ∧ memContents words mem = true then
    some ({ State.reset with memWords := words }.applyReset regs mem)
  else none

/-- One move of the host; `none` where the spec gives the move no place: a preset during a step, which only a held LOCK
stretches over the model's steps (92 D20, 93 U22; log 23), a word for a faulted core (60 R224), or memory contents that
are none. -/
def hostMove (m : HostMove) (s : State) : Option State :=
  match m with
  | .reset regs mem => if memContents s.memWords mem then some (s.applyReset regs mem) else none
  | .presetReg r v => if s.lockReq then none else some (s.writeReg r v)
  | .presetSp v => if s.lockReq then none else some (s.writeSp v)
  | .presetFlags z c => if s.lockReq then none else some (s.presetFlags z c)
  | .presetMem a v => if s.lockReq || decide (s.memWords ≤ a) then none else some (s.writeMem a v)
  | .present words => if s.lockReq || s.fault then none else some { s with script := words, k := 0 }
  | .usePort u => some { s with portUses := s.portUses ++ [u] }
  | .answerLock answers rest => some { s with lockGnts := answers, lockGntRest := rest }

end Sys2Proof.Machine
end

