-- ==== Sys2Proof/Safety.lean ====
section
/-!
DEFINITION. What counts as a good state and a safe run, and the terms the statements use for what a step leaves alone.
-/

namespace Sys2Proof.Machine

/-! ### Invariants -/

/-- MEM_WORDS is one the spec allows (00 R8). -/
abbrev State.CapacityOk (s : State) : Prop := 1 ≤ s.memWords ∧ s.memWords ≤ Config.maxMemWords

/-- The memory is in its canonical form and lists none but its own cells (20 R51). -/
abbrev State.MemoryOk (s : State) : Prop := Memory.wf s.mem = true ∧ Memory.within s.memWords s.mem = true

/-- While FAULT is 0, CAUSE and FINSTR are 0 (10 R32); while it is 1, CAUSE is one of the three (60 R202). -/
abbrev State.FaultRecordOk (s : State) : Prop :=
  (s.fault = false → s.cause = 0#8 ∧ s.finstr = 0#32) ∧
    (s.fault = true → s.cause = 1#8 ∨ s.cause = 2#8 ∨ s.cause = 3#8)

/-- Codes 6 and 7 are never driven (47 R190); no request of the lock while a step is done or the core faulted; the
sequencer's index is never past its script's end (70 R233). -/
abbrev State.OutputsOk (s : State) : Prop :=
  s.noteOut.toNat ≤ 5 ∧ (s.lockReq = true → s.instrDone = false ∧ s.fault = false) ∧ s.k ≤ s.script.length

/-- The state invariant every step keeps. -/
abbrev State.Inv (s : State) : Prop := s.CapacityOk ∧ s.MemoryOk ∧ s.FaultRecordOk ∧ s.OutputsOk

/-- The fault record tells the truth (60 R202): CAUSE 1 and 2 are what FINSTR decodes to, CAUSE 3 is a POP with
`sp > MEM_WORDS`, and `sp` still shows it. -/
def State.FaultRecordTrue (s : State) : Prop :=
  (s.fault = false ∧ s.cause = 0#8 ∧ s.finstr = 0#32) ∨
  (s.fault = true ∧ s.cause = 1#8 ∧ decode s.finstr = .error .illegalInstruction) ∨
  (s.fault = true ∧ s.cause = 2#8 ∧ decode s.finstr = .error .invalidRegisterIndex) ∨
  (s.fault = true ∧ s.cause = 3#8 ∧ s.memWords < s.sp.toNat ∧ ∃ r : Fin 8, decode s.finstr = .ok (.pop (regField r)))

/-! ### Safe runs (60 R201, 70 R237, R239) -/

/-- A word that is legal, whose register fields are 0 to 7, and whose operand, if it is a JMP, is at most MEM_WORDS. -/
def safeWord (words : Nat) (w : InstrWord) : Bool :=
  match decode w with
  | .error _ => false
  | .ok (.jmp a) => decide (a.toNat ≤ words)
  | .ok _ => true

/-- No fault yet, `sp` in its stated range, a capacity the spec allows, every word of the script safe. -/
abbrev State.Safe (s : State) : Prop :=
  s.fault = false ∧ s.sp.toNat ≤ s.memWords ∧ s.CapacityOk ∧ s.script.all (safeWord s.memWords) = true

/-- The arbiter grants every request (47 R182). -/
abbrev State.AlwaysGranted (s : State) : Prop := s.lockGnts.all id = true ∧ s.lockGntRest = true

/-- The end of a run (70 R237): every word has been presented, its step has completed, and FAULT is 0. -/
abbrev State.RunEnded (s : State) : Prop := s.script.length ≤ s.k ∧ s.fault = false

/-! ### What a step leaves alone -/

/-- Every register but those listed. -/
def SameRegsExcept (written : List (Fin 8)) (s t : State) : Prop := ∀ j, j ∉ written → t.readReg j = s.readReg j

/-- Every cell of the memory but those listed. -/
def SameCellsExcept (written : List Nat) (s t : State) : Prop := ∀ a, a ∉ written → t.readMem a = s.readMem a

/-- ZF and CF. -/
def SameFlags (s t : State) : Prop := t.zf = s.zf ∧ t.cf = s.cf

/-- FAULT, CAUSE and FINSTR. -/
def SameFaultRecord (s t : State) : Prop := t.fault = s.fault ∧ t.cause = s.cause ∧ t.finstr = s.finstr

/-- MEM_WORDS, the script and the arbiter's level after its listed answers. -/
def SameEnvironment (s t : State) : Prop :=
  t.memWords = s.memWords ∧ t.script = s.script ∧ t.lockGntRest = s.lockGntRest

/-- The pins of the two combinational ports and what is pending there. -/
def SamePorts (s t : State) : Prop :=
  t.aluA = s.aluA ∧ t.aluB = s.aluB ∧ t.aluMode = s.aluMode ∧ t.unA = s.unA ∧ t.unFn = s.unFn ∧ t.portUses = s.portUses

/-- The flags, the fault record, the environment with the arbiter's answers, the sequencer's index and the ports: what
no instruction but LOCK touches (and LOCK only the answers). -/
def SameElsewhere (s t : State) : Prop :=
  SameFlags s t ∧ SameFaultRecord s t ∧ SameEnvironment s t ∧ SamePorts s t ∧ t.k = s.k ∧ t.lockGnts = s.lockGnts

/-- The core's own state (10 R36) but the fault record. -/
def SameCore (s t : State) : Prop := t.x = s.x ∧ t.sp = s.sp ∧ t.zf = s.zf ∧ t.cf = s.cf ∧ t.mem = s.mem

/-- The step has completed with this output. -/
def DoneWith (o : Out) (t : State) : Prop := t.out = o ∧ t.instrDone = true ∧ t.lockReq = false

/-- The fault entry of 60 R203 has been made and nothing else of the core has changed. -/
def FaultTaken (cause : BitVec 8) (w : InstrWord) (s t : State) : Prop :=
  t.fault = true ∧ t.cause = cause ∧ t.finstr = w ∧ DoneWith .none t ∧ SameCore s t

/-! ### Encodings, as the statements about an instruction name them -/

/-- The decode faults of an operation of this opcode and shape (30 R72, R76): a field the shape does not use that is not
zero is IllegalInstruction; failing that, a register field it uses that holds 8 to 15 is InvalidRegisterIndex. -/
def FaultsOfShape (sh : Shape) (op : BitVec 8) : Prop :=
  ∀ w : InstrWord, opField w = op →
    if (shapeUsesRa sh = false ∧ raField w ≠ 0#4) ∨ (shapeUsesRb sh = false ∧ rbField w ≠ 0#4) ∨
        (shapeUsesImm sh = false ∧ immField w ≠ 0#16) then
      decode w = .error .illegalInstruction
    else
      ((shapeUsesRa sh = true ∧ 7 < (raField w).toNat) ∨ (shapeUsesRb sh = true ∧ 7 < (rbField w).toNat)) →
        decode w = .error .invalidRegisterIndex

/-- The core is not faulted, no port use is pending, and the sequencer presents this word. -/
def State.Presents (s : State) (w : InstrWord) : Prop :=
  s.portUses = [] ∧ s.fault = false ∧ s.presented = some w

end Sys2Proof.Machine
end

