-- ==== Sys2Proof/Certificates/Slice0/Obligations.lean ====
section
/-!
DEFINITION. The statements for the provers, from the numbered rules of spec/. Each is about every state, capacity, memory
and operand it names; none is about a program. The terms they use for what is left alone are in Sys2Proof/Safety.lean.
-/

open Sys2Proof Sys2Proof.Machine

/-! ### Encoding -/

/-- 30 R79, R82, R83: decoding an encoded well-formed instruction gives it back, operands and overridden mode flags too;
what decodes is well formed and encodes to what it was decoded from, so decoding is injective. -/
def Obligations.EncodeAndDecodeAreInverse : Prop :=
  (∀ i : Instr, i.wellFormed = true → decodeEncoded (encode i) = .ok i) ∧
  (∀ (e : Encoded) (i : Instr), decodeEncoded e = .ok i → i.wellFormed = true ∧ encode i = e)

/-- 30 R76 with R72 and R75: what every word decodes to, by its opcode and fields. -/
def Obligations.DecodeFollowsTheFourChecks : Prop :=
  ∀ (w : InstrWord),
    ((opField w = 0x00#8 ∨ 0x10 < (opField w).toNat) → decode w = .error .illegalInstruction) ∧
    (∀ p ∈ [(0x03#8, Instr.jz), (0x04#8, .jc), (0x0B#8, .lock), (0x0C#8, .cli), (0x0D#8, .sti), (0x0E#8, .sfence),
        (0x0F#8, .lfence), (0x10#8, .mfence)], opField w = p.1 →
      decode w = if raField w = 0#4 ∧ rbField w = 0#4 ∧ immField w = 0#16 then .ok p.2
        else .error .illegalInstruction) ∧
    (opField w = 0x02#8 →
      decode w = if raField w = 0#4 ∧ rbField w = 0#4 then .ok (.jmp (immField w)) else .error .illegalInstruction) ∧
    (∀ p ∈ [(0x05#8, Instr.push (raField w)), (0x06#8, .pop (raField w))], opField w = p.1 →
      decode w = if rbField w = 0#4 ∧ immField w = 0#16 then
          (if (raField w).toNat ≤ 7 then .ok p.2 else .error .invalidRegisterIndex)
        else .error .illegalInstruction) ∧
    (∀ p ∈ [(0x07#8, Instr.add (raField w) (rbField w)), (0x08#8, .sub (raField w) (rbField w)),
        (0x09#8, .xchg (raField w) (rbField w)), (0x0A#8, .cmpxchg (raField w) (rbField w))], opField w = p.1 →
      decode w = if immField w = 0#16 then
          (if (raField w).toNat ≤ 7 ∧ (rbField w).toNat ≤ 7 then .ok p.2 else .error .invalidRegisterIndex)
        else .error .illegalInstruction) ∧
    (opField w = 0x01#8 →
      decode w = if rbField w = 0#4 then
          (if (raField w).toNat ≤ 7 then .ok (.mov (raField w) (immField w)) else .error .invalidRegisterIndex)
        else .error .illegalInstruction)

/-- 30 R76 ("Check 2 is the word matches no row"), 60 R204: the words that decode to IllegalInstruction are exactly those
that match no row of the opcode table. -/
def Obligations.IllegalWordsMatchNoTableRow : Prop :=
  ∀ w : InstrWord, decode w = .error .illegalInstruction ↔ ∀ row ∈ coreRows, rowMatches row w = false

/-- 30 R76: a word matches at most one row of the opcode table. -/
def Obligations.NoWordMatchesTwoTableRows : Prop :=
  ∀ (w : InstrWord) (r q : TableRow), r ∈ coreRows → q ∈ coreRows → rowMatches r w = true → rowMatches q w = true → r = q

/-- Words of 30 R75, R77 and 95 B11 decode to what stands beside them there (sanity). -/
def Obligations.SpecExampleWordsDecode : Prop :=
  (decode 0x0100000A#32 = .ok (.mov 0#4 10#16) ∧ decode 0x0170FFFF#32 = .ok (.mov 7#4 0xFFFF#16) ∧
    decode 0x02000003#32 = .ok (.jmp 3#16) ∧ decode 0x03000000#32 = .ok .jz ∧ decode 0x05000000#32 = .ok (.push 0#4) ∧
    decode 0x06200000#32 = .ok (.pop 2#4) ∧ decode 0x07010000#32 = .ok (.add 0#4 1#4) ∧
    decode 0x08210000#32 = .ok (.sub 2#4 1#4) ∧ decode 0x09700000#32 = .ok (.xchg 7#4 0#4) ∧
    decode 0x0A070000#32 = .ok (.cmpxchg 0#4 7#4) ∧ decode 0x0B000000#32 = .ok .lock ∧
    decode 0x10000000#32 = .ok .mfence) ∧
  (decode 0x00000000#32 = .error .illegalInstruction ∧ decode 0xFFFFFFFF#32 = .error .illegalInstruction ∧
    decode 0x11000000#32 = .error .illegalInstruction ∧ decode 0x07880001#32 = .error .illegalInstruction ∧
    decode 0x07870000#32 = .error .invalidRegisterIndex ∧ decode 0x05800000#32 = .error .invalidRegisterIndex)

/-- 30 R82, R83: all 8 ALU modes and all 4 unary selectors are legal, and which operation each asks for. -/
def Obligations.PortSelectorsChooseTheirOperation : Prop :=
  ∀ a b : Word,
    decodePortUse (.alu 0b000#3 a b) = .aluAdd a b ∧ decodePortUse (.alu 0b100#3 a b) = .aluSub a b ∧
    decodePortUse (.alu 0b010#3 a b) = .aluMul a b false false ∧ decodePortUse (.alu 0b011#3 a b) = .aluMul a b false true ∧
    decodePortUse (.alu 0b110#3 a b) = .aluMul a b true false ∧ decodePortUse (.alu 0b111#3 a b) = .aluMul a b true true ∧
    decodePortUse (.alu 0b001#3 a b) = .aluDiv a b false ∧ decodePortUse (.alu 0b101#3 a b) = .aluDiv a b true ∧
    decodePortUse (.un 0#2 a) = .inc a ∧ decodePortUse (.un 1#2 a) = .dec a ∧
    decodePortUse (.un 2#2 a) = .shl a ∧ decodePortUse (.un 3#2 a) = .shr a

/-! ### Reset and the host -/

/-- 70 R230, R231, R233 with 10 R37: what reset leaves, from every state, for every RESET_REGS and RESET_MEM. -/
def Obligations.ResetPutsEveryFieldAtItsValue : Prop :=
  ∀ (s : State) (regs : Vector Word Config.nregs) (mem : Memory), memContents s.memWords mem = true →
    ∃ t, hostMove (.reset regs mem) s = some t ∧
      t.sp = 0#16 ∧ t.zf = false ∧ t.cf = false ∧ t.fault = false ∧ t.cause = 0#8 ∧ t.finstr = 0#32 ∧
      t.x = regs ∧ t.mem = mem ∧ t.memWords = s.memWords ∧
      t.lockReq = false ∧ t.predValid = false ∧ t.noteOut = 0#3 ∧ t.k = 0

/-- A constructed core and `State.reset` meet the invariant and their fault record is true (00 R8, 10 R37). The registers,
memory and capacity of `State.reset` are the model's choice (log 2, 3, 5); those of `construct` are arbitrary. -/
def Obligations.ConstructedCoresMeetTheInvariant : Prop :=
  (∀ (words : Nat) (regs : Vector Word Config.nregs) (mem : Memory),
    1 ≤ words → words ≤ 65535 → memContents words mem = true →
    ∃ s, State.construct words regs mem = some s ∧ s.memWords = words ∧ s.x = regs ∧ s.mem = mem ∧ s.Inv ∧
      s.FaultRecordTrue) ∧
  State.reset.Inv ∧ State.reset.FaultRecordTrue

/-- 60 R224, R225: every move of the host keeps the invariant. -/
def Obligations.HostMovesKeepTheInvariant : Prop :=
  ∀ (m : HostMove) (s t : State), s.Inv → hostMove m s = some t → t.Inv

/-- 92 D20, 70 R230: no move of the host but reset touches FAULT, CAUSE or FINSTR, none changes MEM_WORDS, and none but
reset and the preset of the flags changes a flag. -/
def Obligations.HostMovesLeaveTheFaultRecordAndCapacity : Prop :=
  ∀ (m : HostMove) (s t : State), hostMove m s = some t →
    t.memWords = s.memWords ∧
    ((∀ regs mem, m ≠ .reset regs mem) →
      SameFaultRecord s t ∧ ((∀ z c, m ≠ .presetFlags z c) → SameFlags s t))

/-! ### The ALU and the unary functions -/

/-- 41 R124: the ripple chain of R123, which is the ALU's add and subtract, adds and subtracts modulo 65536. -/
def Obligations.RippleChainIsModularArithmetic : Prop :=
  ∀ a b : Word,
    alu a b false false false = addSub a b false ∧ alu a b true false false = addSub a b true ∧
    (addSub a b false).toNat = (a.toNat + b.toNat) % 65536 ∧
    ((addSub a b true).toNat : Int) = ((a.toNat : Int) - (b.toNat : Int)) % 65536

/-- 41 R125: the chain's last carry is 1 on add exactly when the sum wraps, on subtract exactly when there is no borrow. -/
def Obligations.FinalCarryIsWrapOrNoBorrow : Prop :=
  ∀ a b : Word,
    (carryOut a b false = true ↔ 65536 ≤ a.toNat + b.toNat) ∧ (carryOut a b true = true ↔ b.toNat ≤ a.toNat)

/-- 41 R120, R121, R122, R126, R127: the ALU for every combination of its mode flags. -/
def Obligations.AluComputesByPrecedence : Prop :=
  ∀ (a b : Word) (subtract divide : Bool),
    (alu a b subtract true divide).toNat = (a.toNat * b.toNat) % 65536 ∧
    (alu a b subtract false true).toNat = (if b.toNat = 0 then 0 else a.toNat / b.toNat) ∧
    (alu a b false false false).toNat = (a.toNat + b.toNat) % 65536 ∧
    ((alu a b true false false).toNat : Int) = ((a.toNat : Int) - (b.toNat : Int)) % 65536

/-- 41 R133 to R136: the four unary functions, as numbers, and the shifts bit by bit. -/
def Obligations.UnaryFunctionsCompute : Prop :=
  ∀ a : Word,
    incWord a = alu a 1#16 false false false ∧ (incWord a).toNat = (a.toNat + 1) % 65536 ∧
    decWord a = alu a 1#16 true false false ∧ ((decWord a).toNat : Int) = ((a.toNat : Int) - 1) % 65536 ∧
    decWord (incWord a) = a ∧ incWord (decWord a) = a ∧
    (shlWord a).toNat = (2 * a.toNat) % 65536 ∧ (shlWord a).getLsbD 0 = false ∧
    (∀ i, 1 ≤ i → i ≤ 15 → (shlWord a).getLsbD i = a.getLsbD (i - 1)) ∧
    (shrWord a).toNat = a.toNat / 2 ∧ (shrWord a).getLsbD 15 = false ∧
    (∀ i, i ≤ 14 → (shrWord a).getLsbD i = a.getLsbD (i + 1))

/-- 41 R137: SHL and SHR undo each other exactly when no bit is lost, and otherwise the lost bit is cleared. -/
def Obligations.ShiftsLoseOnlyTheOuterBit : Prop :=
  ∀ a : Word,
    (shrWord (shlWord a) = a ↔ a.getLsbD 15 = false) ∧ (shlWord (shrWord a) = a ↔ a.getLsbD 0 = false) ∧
    shrWord (shlWord a) = a &&& 0x7FFF#16 ∧ shlWord (shrWord a) = a &&& 0xFFFE#16

/-- 41 R139 with R122 to R127, 30 R82: ALU.ADD, ALU.SUB, ALU.MUL and ALU.DIV complete in every state, `alu_y` is the result
for the operands, the mode driven is the one asked for, overridden flags included, and nothing but the port's input pins
changes. -/
def Obligations.AluPortAnswersItsOperation : Prop :=
  ∀ (a b : Word) (subtract divide : Bool) (s : State),
    (∃ t, exec (.aluAdd a b) s = .next t ∧ t = { s with aluMode := aluModeOf false false false, aluA := a, aluB := b } ∧
      t.aluY.toNat = (a.toNat + b.toNat) % 65536) ∧
    (∃ t, exec (.aluSub a b) s = .next t ∧ t = { s with aluMode := aluModeOf true false false, aluA := a, aluB := b } ∧
      (t.aluY.toNat : Int) = ((a.toNat : Int) - (b.toNat : Int)) % 65536) ∧
    (∃ t, exec (.aluMul a b subtract divide) s = .next t ∧
      t = { s with aluMode := aluModeOf subtract true divide, aluA := a, aluB := b } ∧
      t.aluY.toNat = (a.toNat * b.toNat) % 65536) ∧
    (∃ t, exec (.aluDiv a b subtract) s = .next t ∧
      t = { s with aluMode := aluModeOf subtract false true, aluA := a, aluB := b } ∧
      t.aluY.toNat = if b.toNat = 0 then 0 else a.toNat / b.toNat)

/-- 41 R139 with R133 to R136, 30 R83: INC, DEC, SHL and SHR complete in every state, `un_y` is the result for the
operand, the selector driven is the function's, and nothing but the port's input pins changes. -/
def Obligations.UnaryPortAnswersItsFunction : Prop :=
  ∀ (a : Word) (s : State),
    (∃ t, exec (.inc a) s = .next t ∧ t = { s with unFn := 0#2, unA := a } ∧ t.unY.toNat = (a.toNat + 1) % 65536) ∧
    (∃ t, exec (.dec a) s = .next t ∧ t = { s with unFn := 1#2, unA := a } ∧
      (t.unY.toNat : Int) = ((a.toNat : Int) - 1) % 65536) ∧
    (∃ t, exec (.shl a) s = .next t ∧ t = { s with unFn := 2#2, unA := a } ∧ t.unY.toNat = (2 * a.toNat) % 65536) ∧
    (∃ t, exec (.shr a) s = .next t ∧ t = { s with unFn := 3#2, unA := a } ∧ t.unY.toNat = a.toNat / 2)

/-! ### The instructions -/

/-- 42 R140: MOV's word, its faults, and that it writes the immediate and nothing else. -/
def Obligations.MovWritesItsImmediate : Prop :=
  FaultsOfShape .ri 0x01#8 ∧
  ∀ (r : Fin 8) (v : Word) (s : State),
    decode (packWord 0x01#8 (regField r) 0#4 v) = .ok (.mov (regField r) v) ∧
    ∃ t, exec (.mov (regField r) v) s = .next t ∧ t.readReg r = v ∧ SameRegsExcept [r] s t ∧ t.sp = s.sp ∧
      SameCellsExcept [] s t ∧ SameElsewhere s t ∧ DoneWith .none t

/-- 43 R145: JMP's word, its faults, and that it sets `sp` to any operand and does nothing else. -/
def Obligations.JmpSetsOnlyTheStackPointer : Prop :=
  FaultsOfShape .i 0x02#8 ∧
  ∀ (a : Word) (s : State),
    decode (packWord 0x02#8 0#4 0#4 a) = .ok (.jmp a) ∧
    ∃ t, exec (.jmp a) s = .next t ∧ t.sp = a ∧ SameRegsExcept [] s t ∧ SameCellsExcept [] s t ∧ SameElsewhere s t ∧
      DoneWith .none t

/-- 43 R148, R150: JZ and JC send the flag they are named for and change nothing. -/
def Obligations.JzAndJcReportTheirFlag : Prop :=
  FaultsOfShape .z 0x03#8 ∧ FaultsOfShape .z 0x04#8 ∧
  decode 0x03000000#32 = .ok .jz ∧ decode 0x04000000#32 = .ok .jc ∧
  ∀ s : State,
    (∃ t, exec .jz s = .next t ∧ t.predOut = s.zf ∧ t.predValid = true ∧ DoneWith (.pred s.zf) t ∧ SameCore s t ∧
      SameElsewhere s t) ∧
    (∃ t, exec .jc s = .next t ∧ t.predOut = s.cf ∧ t.predValid = true ∧ DoneWith (.pred s.cf) t ∧ SameCore s t ∧
      SameElsewhere s t)

/-- 44 R155: PUSH with room writes the register to the cell at the old `sp` and adds 1; on a full stack, or above it, it
completes and does nothing. The premises on the memory and the capacity are part of the invariant. -/
def Obligations.PushStoresAtSpOrDoesNothing : Prop :=
  FaultsOfShape .r 0x05#8 ∧
  ∀ (r : Fin 8) (s : State), s.CapacityOk → Memory.wf s.mem = true →
    decode (packWord 0x05#8 (regField r) 0#4 0#16) = .ok (.push (regField r)) ∧
    ∃ t, exec (.push (regField r)) s = .next t ∧ SameRegsExcept [] s t ∧ SameElsewhere s t ∧ DoneWith .none t ∧
      if s.sp.toNat < s.memWords then
        t.readMem s.sp.toNat = s.readReg r ∧ SameCellsExcept [s.sp.toNat] s t ∧ t.sp.toNat = s.sp.toNat + 1
      else t.sp = s.sp ∧ SameCellsExcept [] s t

/-- 44 R158: POP on an empty stack completes and does nothing; with a Word on the stack it subtracts 1 and loads the cell
at the new `sp`; with `sp > MEM_WORDS` it raises MemoryIndexOutOfRange and changes nothing else. -/
def Obligations.PopLoadsOrDoesNothingOrFaults : Prop :=
  FaultsOfShape .r 0x06#8 ∧
  ∀ (r : Fin 8) (s : State),
    decode (packWord 0x06#8 (regField r) 0#4 0#16) = .ok (.pop (regField r)) ∧
    ∃ t, exec (.pop (regField r)) s = .next t ∧ SameCellsExcept [] s t ∧ SameFlags s t ∧
      if s.sp = 0#16 then SameCore s t ∧ SameElsewhere s t ∧ DoneWith .none t
      else if s.sp.toNat ≤ s.memWords then
        t.readReg r = s.readMem (s.sp.toNat - 1) ∧ t.sp.toNat = s.sp.toNat - 1 ∧ SameRegsExcept [r] s t ∧
          SameElsewhere s t ∧ DoneWith .none t
      else FaultTaken 3#8 (packWord 0x06#8 (regField r) 0#4 0#16) s t ∧ SameEnvironment s t ∧ SamePorts s t ∧ t.k = s.k

/-- 45 R165: ADD's word, its faults, and that it writes the sum modulo 65536 to its first register and nothing else. -/
def Obligations.AddWritesTheSum : Prop :=
  FaultsOfShape .rr 0x07#8 ∧
  ∀ (r q : Fin 8) (s : State),
    decode (packWord 0x07#8 (regField r) (regField q) 0#16) = .ok (.add (regField r) (regField q)) ∧
    ∃ t, exec (.add (regField r) (regField q)) s = .next t ∧
      t.readReg r = alu (s.readReg r) (s.readReg q) false false false ∧
      (t.readReg r).toNat = ((s.readReg r).toNat + (s.readReg q).toNat) % 65536 ∧
      SameRegsExcept [r] s t ∧ t.sp = s.sp ∧ SameCellsExcept [] s t ∧ SameElsewhere s t ∧ DoneWith .none t

/-- 45 R166: SUB's word, its faults, and that it writes the difference modulo 65536 to its first register and nothing
else. -/
def Obligations.SubWritesTheDifference : Prop :=
  FaultsOfShape .rr 0x08#8 ∧
  ∀ (r q : Fin 8) (s : State),
    decode (packWord 0x08#8 (regField r) (regField q) 0#16) = .ok (.sub (regField r) (regField q)) ∧
    ∃ t, exec (.sub (regField r) (regField q)) s = .next t ∧
      t.readReg r = alu (s.readReg r) (s.readReg q) true false false ∧
      ((t.readReg r).toNat : Int) = (((s.readReg r).toNat : Int) - ((s.readReg q).toNat : Int)) % 65536 ∧
      SameRegsExcept [r] s t ∧ t.sp = s.sp ∧ SameCellsExcept [] s t ∧ SameElsewhere s t ∧ DoneWith .none t

/-- 46 R170: XCHG's word, its faults, and that it swaps its two registers and changes nothing else; the order of its
operands does not matter, and a second XCHG restores the registers. -/
def Obligations.XchgSwapsTwoRegisters : Prop :=
  FaultsOfShape .rr 0x09#8 ∧
  ∀ (r q : Fin 8) (s : State),
    decode (packWord 0x09#8 (regField r) (regField q) 0#16) = .ok (.xchg (regField r) (regField q)) ∧
    ∃ t u, exec (.xchg (regField r) (regField q)) s = .next t ∧ exec (.xchg (regField q) (regField r)) s = .next t ∧
      t.readReg r = s.readReg q ∧ t.readReg q = s.readReg r ∧ SameRegsExcept [r, q] s t ∧ t.sp = s.sp ∧
      SameCellsExcept [] s t ∧ SameElsewhere s t ∧ DoneWith .none t ∧
      exec (.xchg (regField r) (regField q)) t = .next u ∧ SameRegsExcept [] s u

/-- 46 R173, R174: CMPXCHG's word, its faults, and that it completes, changes nothing and reports nothing, whether or not
the registers are equal. -/
def Obligations.CmpxchgChangesAndReportsNothing : Prop :=
  FaultsOfShape .rr 0x0A#8 ∧
  ∀ (r q : Fin 8) (s : State),
    decode (packWord 0x0A#8 (regField r) (regField q) 0#16) = .ok (.cmpxchg (regField r) (regField q)) ∧
    ∃ t, exec (.cmpxchg (regField r) (regField q)) s = .next t ∧ SameCore s t ∧ SameElsewhere s t ∧ DoneWith .none t

/-- 47 R180, R182: LOCK's word and faults; granted, it completes with the request released; not granted, it is held with
the request up, no output and no fault. Either way no core state changes and one answer of the arbiter is used up. That a
hold is a next state is the model's choice (log 8). -/
def Obligations.LockCompletesWhenGrantedElseHolds : Prop :=
  FaultsOfShape .z 0x0B#8 ∧ decode 0x0B000000#32 = .ok .lock ∧
  ∀ s : State, ∃ t, exec .lock s = .next t ∧ SameCore s t ∧ SameFaultRecord s t ∧ SameEnvironment s t ∧ SamePorts s t ∧
    t.k = s.k ∧ t.lockGnts = s.lockGnts.tail ∧
    if s.lockGnts.head?.getD s.lockGntRest = true then DoneWith .none t
    else t.lockReq = true ∧ t.instrDone = false ∧ t.out = .none

/-- 47 R182, R183, 70 R237: a LOCK that is never granted, now or by any coming answer, is held for ever: after any number of steps the core's state is as
it was, the request is up, and the run has not ended. That the model steps in place is its choice (log 8). -/
def Obligations.UngrantedLockIsHeldForEver : Prop :=
  ∀ (s : State) (n : Nat), s.Presents 0x0B000000#32 → (∀ g ∈ s.lockGnts, g = false) →
    s.lockGntRest = false →
    ∃ t : State, Sys2Proof.core.run (n + 1) s = .next t ∧ SameCore s t ∧ SameFaultRecord s t ∧ t.lockReq = true ∧
      t.k = s.k ∧ ¬ t.RunEnded

/-- 47 R184, R186 to R190: CLI, STI, SFENCE, LFENCE and MFENCE send their notification code and change nothing. -/
def Obligations.StubsOnlySendTheirNotification : Prop :=
  ∀ p ∈ [(Instr.cli, 0x0C#8, 1#3), (.sti, 0x0D#8, 2#3), (.sfence, 0x0E#8, 3#3), (.lfence, 0x0F#8, 4#3),
      (.mfence, 0x10#8, 5#3)],
    FaultsOfShape .z p.2.1 ∧ decode (packWord p.2.1 0#4 0#4 0#16) = .ok p.1 ∧
    ∀ s : State, ∃ t, exec p.1 s = .next t ∧ t.noteOut = p.2.2 ∧ t.predValid = false ∧ DoneWith (.note p.2.2) t ∧
      SameCore s t ∧ SameElsewhere s t

/-! ### Several instructions together -/

/-- 44 R157: PUSH then POP copies the first register to the second, leaves `sp` and every other register, and leaves the
copy in the cell; with the same register it restores everything but that cell. -/
def Obligations.PushThenPopCopies : Prop :=
  ∀ (r d : Fin 8) (s : State), s.CapacityOk → Memory.wf s.mem = true → s.sp.toNat < s.memWords →
    ∃ t u, exec (.push (regField r)) s = .next t ∧ exec (.pop (regField d)) t = .next u ∧
      u.readReg d = s.readReg r ∧ SameRegsExcept [d] s u ∧ u.sp = s.sp ∧ u.readMem s.sp.toNat = s.readReg r ∧
      SameCellsExcept [s.sp.toNat] s u ∧ SameElsewhere s u

/-- 43 R146: JMP to `a + 1` then POP reads `mem[a]` and leaves `sp = a`; JMP to `a` then PUSH writes `mem[a]` and leaves
`sp = a + 1`. -/
def Obligations.JmpReachesEveryCell : Prop :=
  ∀ (a : Nat) (r : Fin 8) (s : State), s.CapacityOk → Memory.wf s.mem = true → a < s.memWords →
    (∃ t u, exec (.jmp (BitVec.ofNat 16 (a + 1))) s = .next t ∧ exec (.pop (regField r)) t = .next u ∧
      u.readReg r = s.readMem a ∧ u.sp.toNat = a ∧ SameRegsExcept [r] s u ∧ SameCellsExcept [] s u) ∧
    (∃ t u, exec (.jmp (BitVec.ofNat 16 a)) s = .next t ∧ exec (.push (regField r)) t = .next u ∧
      u.readMem a = s.readReg r ∧ u.sp.toNat = a + 1 ∧ SameRegsExcept [] s u ∧ SameCellsExcept [a] s u)

/-! ### Faults -/

/-- 60 R205: an instruction with a register operand of 8 to 15 raises InvalidRegisterIndex with its own word, in every
state, and no register changes. That `exec` of an ill-formed instruction does what 30 R76 has the presented word do at
decode is the model's choice (log 13). -/
def Obligations.BadRegisterOperandFaults : Prop :=
  ∀ (i : Instr) (s : State), i.wellFormed = false →
    ∃ w t, encode i = .word w ∧ exec i s = .next t ∧ FaultTaken 2#8 w s t ∧ SameEnvironment s t ∧ SamePorts s t ∧ t.k = s.k

/-- 60 R203, R204, R205 and 30 R76: a presented word that does not decode takes its fault in its step: the cause, the word,
nothing else of the core, and the sequencer gets its `instr_done`. -/
def Obligations.UndecodableWordTakesItsFault : Prop :=
  ∀ (s : State) (w : InstrWord), s.Presents w →
    (decode w = .error .illegalInstruction →
      ∃ t, step s = .next t ∧ FaultTaken 1#8 w s t ∧ SameEnvironment s t ∧ SamePorts s t ∧ t.k = s.k + 1) ∧
    (decode w = .error .invalidRegisterIndex →
      ∃ t, step s = .next t ∧ FaultTaken 2#8 w s t ∧ SameEnvironment s t ∧ SamePorts s t ∧ t.k = s.k + 1)

/-- 60 R208: decode checks come before every guard, unused fields before register fields: PUSH and POP with a register
field of 8 to 15 fault with cause 1 when a field they do not use is not zero and with cause 2 otherwise, wherever `sp`
stands. -/
def Obligations.DecodeFaultsComeBeforeGuards : Prop :=
  ∀ (s : State) (w : InstrWord), s.Presents w → (opField w = 0x05#8 ∨ opField w = 0x06#8) → 8 ≤ (raField w).toNat →
    ∃ t, step s = .next t ∧ SameCore s t ∧ t.fault = true ∧
      t.cause = if rbField w = 0#4 ∧ immField w = 0#16 then 2#8 else 1#8

/-- 60 R203: a step in which the core becomes faulted records the presented word and one of the three causes, has no
output, and changes nothing else of the core. -/
def Obligations.FaultsArePrecise : Prop :=
  ∀ s t : State, step s = .next t → s.fault = false → t.fault = true →
    s.presented = some t.finstr ∧ (t.cause = 1#8 ∨ t.cause = 2#8 ∨ t.cause = 3#8) ∧ FaultTaken t.cause t.finstr s t ∧
      SameEnvironment s t ∧ t.lockGnts = s.lockGnts

/-- 60 R209 with R139: while FAULT is 1, a step can only serve a pending port use, which leaves the core, its fault record,
its outputs and the sequencer as they are; with none pending the model stops as halted (log 9). -/
def Obligations.FaultedCoreTakesNoStep : Prop :=
  ∀ s : State, s.fault = true →
    (s.portUses = [] → step s = .fault .halted) ∧
    (s.portUses ≠ [] → ∃ t, step s = .next t ∧ SameCore s t ∧ SameFaultRecord s t ∧ SameEnvironment s t ∧ t.k = s.k ∧
      t.out = s.out ∧ t.instrDone = s.instrDone ∧ t.lockReq = s.lockReq ∧ t.portUses = s.portUses.tail)

/-! ### Every step -/

/-- The invariant of Sys2Proof/Safety.lean (00 R8, 20 R51, 10 R32, 47 R190, 70 R233) is kept by every step. -/
def Obligations.EveryStepKeepsTheInvariant : Prop :=
  ∀ s t : State, s.Inv → step s = .next t → t.Inv

/-- 60 R202, 10 R32: every step keeps the fault record true: CAUSE says what FINSTR decodes to, or that a POP met
`sp > MEM_WORDS`, which `sp` still shows. -/
def Obligations.EveryStepKeepsTheFaultRecordTrue : Prop :=
  ∀ s t : State, s.FaultRecordTrue → step s = .next t → t.FaultRecordTrue

/-- 10 R25: no step writes ZF or CF. -/
def Obligations.NoStepWritesAFlag : Prop :=
  ∀ s t : State, step s = .next t → t.zf = s.zf ∧ t.cf = s.cf

/-- 10 R29: `sp` is written by PUSH, POP and JMP alone, and how. -/
def Obligations.OnlyPushPopJmpWriteSp : Prop :=
  ∀ s t : State, step s = .next t → t.sp ≠ s.sp →
    ∃ w, s.Presents w ∧
      ((∃ r, decode w = .ok (.push r) ∧ s.sp.toNat < s.memWords ∧ t.sp = s.sp + 1#16) ∨
       (∃ r, decode w = .ok (.pop r) ∧ 0 < s.sp.toNat ∧ t.sp = s.sp - 1#16) ∨
       (∃ a, decode w = .ok (.jmp a) ∧ t.sp = a))

/-- 20 R53, 10 R36: only PUSH changes the memory, and only the cell at the old `sp`, which is one of the memory's. -/
def Obligations.OnlyPushWritesMemory : Prop :=
  ∀ s t : State, Memory.wf s.mem = true → step s = .next t → t.mem ≠ s.mem →
    ∃ w r, s.Presents w ∧ decode w = .ok (.push (regField r)) ∧ s.sp.toNat < s.memWords ∧
      t.readMem s.sp.toNat = s.readReg r ∧ SameCellsExcept [s.sp.toNat] s t

/-- 10 R22: a register changes only in a step of an instruction that the table of R22 says writes it. -/
def Obligations.OnlyTheNamedRegistersChange : Prop :=
  ∀ (s t : State) (j : Fin 8), step s = .next t → t.readReg j ≠ s.readReg j →
    ∃ w, s.Presents w ∧
      ((∃ v, decode w = .ok (.mov (regField j) v)) ∨ decode w = .ok (.pop (regField j)) ∨
       (∃ q, decode w = .ok (.add (regField j) q)) ∨ (∃ q, decode w = .ok (.sub (regField j) q)) ∨
       (∃ q, decode w = .ok (.xchg (regField j) q)) ∨ (∃ q, decode w = .ok (.xchg q (regField j))))

/-- 00 R8, 70 R233: no step changes the capacity or the script, and the sequencer's index goes on by one or stays. -/
def Obligations.CapacityAndScriptNeverChange : Prop :=
  ∀ s t : State, step s = .next t → t.memWords = s.memWords ∧ t.script = s.script ∧ (t.k = s.k ∨ t.k = s.k + 1)

/-- 10 R34, 43 R149, 47 R190: `pred_valid` is 1 exactly after JZ or JC, and `note_out` is not 0 exactly after one of the
five stubs; never above 5. -/
def Obligations.OutputsComeFromTheirInstructions : Prop :=
  ∀ s t : State, step s = .next t → s.portUses = [] →
    (t.predValid = true ↔ ∃ w, s.Presents w ∧ (decode w = .ok .jz ∨ decode w = .ok .jc)) ∧
    (t.noteOut ≠ 0#3 ↔ ∃ w, s.Presents w ∧ (decode w = .ok .cli ∨ decode w = .ok .sti ∨ decode w = .ok .sfence ∨
      decode w = .ok .lfence ∨ decode w = .ok .mfence)) ∧
    t.noteOut.toNat ≤ 5

/-- 47 R191, 70 R236: no step of the core or of the sequencer reads the predicate or the notification of an earlier one. That
none reads `instr_done` or `lock_req` either, since the sequencer goes on within the step that signals it, is the model's
choice (log 6). -/
def Obligations.OutputsFeedNothing : Prop :=
  ∀ (s : State) (o : Out) (done req : Bit), s.portUses = [] →
    step { s with out := o, instrDone := done, lockReq := req } = step s

/-- 10 R24, R25: the flags influence nothing but what JZ and JC send: two states that differ in their flags alone step
alike, to states that differ in their flags alone, and in the output if the step is that of a JZ or a JC. -/
def Obligations.FlagsInfluenceOnlyTheOutput : Prop :=
  ∀ (s : State) (z c : Bit),
    (∀ t, step s = .next t →
      ∃ o, step { s with zf := z, cf := c } = .next { t with zf := z, cf := c, out := o } ∧
        ((¬ ∃ w, s.Presents w ∧ (decode w = .ok .jz ∨ decode w = .ok .jc)) → o = t.out)) ∧
    (∀ f, step s = .fault f → step { s with zf := z, cf := c } = .fault f)

/-- 60 R201: in a state whose script's words are legal with JMP operands at most MEM_WORDS, not faulted and with `sp` in
its range, every step completes, to such a state again: no fault can occur. -/
def Obligations.SafeStatesStepToSafeStates : Prop :=
  ∀ s : State, s.Safe → ∃ t, step s = .next t ∧ t.Safe

/-- 70 R237: with every request of the lock granted, a script of n safe words ends after exactly n steps, and not
before. -/
def Obligations.SafeScriptsEndAfterTheirLength : Prop :=
  ∀ s : State, s.Safe → s.AlwaysGranted → s.portUses = [] → s.k = 0 →
    ∀ m, m ≤ s.script.length → ∃ t : State, Sys2Proof.core.run m s = .next t ∧ t.k = m ∧ (t.RunEnded ↔ m = s.script.length)

/-! ### How a step is put together, and the memory's form -/

/-- 30 R76, 70 R233: a presented word that decodes is run by `exec` in that state, and the sequencer then goes on to the
next word if `instr_done` was signalled, and stays if it was not. -/
def Obligations.StepRunsTheDecodedInstruction : Prop :=
  ∀ (s t : State) (w : InstrWord) (i : Instr), s.Presents w → decode w = .ok i → exec i s = .next t →
    step s = .next { t with k := if t.instrDone then t.k + 1 else t.k }

/-- 41 R139, 60 R209: a pending use of a port is served by `exec` of the operation its selector asks for, whatever the core's
state, faulted or not. That it is served before the core's next step is the model's choice (log 10). -/
def Obligations.StepServesPendingPortUses : Prop :=
  ∀ (s : State) (u : PortUse) (rest : List PortUse), s.portUses = u :: rest →
    step s = exec (decodePortUse u) { s with portUses := rest }

/-- 70 R237, 10 R34: at the script's end the core idles: its state does not change and no output is driven. That idling
is a next state is the model's choice (log 15). -/
def Obligations.CoreIdlesAtTheScriptsEnd : Prop :=
  ∀ s : State, s.portUses = [] → s.fault = false → s.script.length ≤ s.k →
    ∃ t, step s = .next t ∧ SameCore s t ∧ SameElsewhere s t ∧ t.predValid = false ∧ t.noteOut = 0#3 ∧
      t.lockReq = false

/-- 20 R52 and the model's canonical form (log 4, 5): two memories in canonical form with the same contents are the same
list. -/
def Obligations.SameContentsAreTheSameMemory : Prop :=
  ∀ m n : Memory, Memory.wf m = true → Memory.wf n = true → (∀ a, Memory.read m a = Memory.read n a) → m = n
end

