-- ==== Sys2Proof/Laws/Alu.lean ====
section
/-!
SUPPORT. The mode flags of a packed `alu_mode` (30_encoding R82) and what one adder cell adds (40 R112 to R114).
-/

namespace Sys2Proof.Machine

@[simp] theorem modeSubtract_aluModeOf (sub mul div : Bool) : modeSubtract (aluModeOf sub mul div) = sub := by
  revert sub mul div; decide

@[simp] theorem modeMultiply_aluModeOf (sub mul div : Bool) : modeMultiply (aluModeOf sub mul div) = mul := by
  revert sub mul div; decide

@[simp] theorem modeDivide_aluModeOf (sub mul div : Bool) : modeDivide (aluModeOf sub mul div) = div := by
  revert sub mul div; decide

/-- A mode is packed from its three flags. -/
theorem aluModeOf_flags (m : BitVec 3) : aluModeOf (modeSubtract m) (modeMultiply m) (modeDivide m) = m := by
  revert m; decide

@[simp] theorem gateXor_eq (a b : Bit) : gateXor a b = (a ^^ b) := by cases a <;> cases b <;> rfl

@[simp] theorem gateAnd_eq (a b : Bit) : gateAnd a b = (a && b) := by cases a <;> cases b <;> rfl

@[simp] theorem gateOr_eq (a b : Bit) : gateOr a b = (a || b) := by cases a <;> cases b <;> rfl

@[simp] theorem gateNot_eq (a : Bit) : gateNot a = !a := by cases a <;> rfl

/-- `a + b = 2*carry + sum` (40 R112). -/
theorem halfAdder_adds (a b : Bit) : a.toNat + b.toNat = 2 * (halfAdder a b).carry.toNat + (halfAdder a b).sum.toNat := by
  revert a b; decide

/-- `a + b + cin = 2*carry + sum` (40 R114). -/
theorem fullAdder_adds (a b cin : Bit) :
    a.toNat + b.toNat + cin.toNat = 2 * (fullAdder a b cin).carry.toNat + (fullAdder a b cin).sum.toNat := by
  revert a b cin; decide

end Sys2Proof.Machine
end

