-- ==== Sys2Proof/Laws/Decode.lean ====
section
/-!
SUPPORT. The fields of a packed word (30_encoding R71), and the opcode map both ways (R75).
-/

namespace Sys2Proof

theorem getLsbD_packWord (op : BitVec 8) (ra rb : RegField) (imm : Word) (i : Nat) :
    (packWord op ra rb imm).getLsbD i =
      if i < 16 then imm.getLsbD i else if i < 20 then rb.getLsbD (i - 16)
      else if i < 24 then ra.getLsbD (i - 20) else op.getLsbD (i - 24) := by
  simp only [packWord, BitVec.getLsbD_append]
  by_cases h1 : i < 16
  · simp [h1]
  by_cases h2 : i < 20
  · simp [h1, h2, show i - 16 < 4 by omega]
  by_cases h3 : i < 24
  · simp [h1, h2, h3, show ¬ i - 16 < 4 by omega, show i - 16 - 4 = i - 20 by omega, show i - 20 < 4 by omega]
  · simp [h1, h2, h3, show ¬ i - 16 < 4 by omega, show ¬ i - 16 - 4 < 4 by omega, show i - 16 - 4 - 4 = i - 24 by omega]

@[simp] theorem opField_packWord (op : BitVec 8) (ra rb : RegField) (imm : Word) : opField (packWord op ra rb imm) = op := by
  ext i hi
  simp only [opField, BitVec.getElem_extractLsb', getLsbD_packWord]
  simp [show ¬ 24 + i < 16 by omega, show ¬ 24 + i < 20 by omega, BitVec.getLsbD_eq_getElem hi]

@[simp] theorem raField_packWord (op : BitVec 8) (ra rb : RegField) (imm : Word) : raField (packWord op ra rb imm) = ra := by
  ext i hi
  simp only [raField, BitVec.getElem_extractLsb', getLsbD_packWord]
  simp [show ¬ 20 + i < 16 by omega, show 20 + i < 24 by omega, BitVec.getLsbD_eq_getElem hi]

@[simp] theorem rbField_packWord (op : BitVec 8) (ra rb : RegField) (imm : Word) : rbField (packWord op ra rb imm) = rb := by
  ext i hi
  simp only [rbField, BitVec.getElem_extractLsb', getLsbD_packWord]
  simp [show 16 + i < 20 by omega, BitVec.getLsbD_eq_getElem hi]

@[simp] theorem immField_packWord (op : BitVec 8) (ra rb : RegField) (imm : Word) : immField (packWord op ra rb imm) = imm := by
  ext i hi
  simp only [immField, BitVec.getElem_extractLsb', getLsbD_packWord]
  simp [hi]

/-- A word is what its four fields pack to. -/
theorem packWord_fields (w : InstrWord) : packWord (opField w) (raField w) (rbField w) (immField w) = w := by
  ext i hi
  rw [← BitVec.getLsbD_eq_getElem hi, ← BitVec.getLsbD_eq_getElem hi, getLsbD_packWord]
  simp only [opField, raField, rbField, immField, BitVec.getLsbD_extractLsb']
  split
  · simp [*]
  split
  · simp [show i - 16 < 4 by omega, show 16 + (i - 16) = i by omega]
  split
  · simp [show i - 20 < 4 by omega, show 20 + (i - 20) = i by omega]
  · simp [show i - 24 < 8 by omega, show 24 + (i - 24) = i by omega]

/-- Masking a packed word masks its fields. -/
theorem packWord_and (op op' : BitVec 8) (ra ra' rb rb' : RegField) (imm imm' : Word) :
    packWord op ra rb imm &&& packWord op' ra' rb' imm' = packWord (op &&& op') (ra &&& ra') (rb &&& rb') (imm &&& imm') := by
  ext i hi
  rw [← BitVec.getLsbD_eq_getElem hi, ← BitVec.getLsbD_eq_getElem hi]
  simp only [BitVec.getLsbD_and, getLsbD_packWord]
  split_ifs <;> rfl

@[simp] theorem opcodeOf_opcodeNumber (op : Opcode) : opcodeOf (opcodeNumber op) = some op := by
  cases op <;> rfl

/-- An opcode number that selects an operation is that operation's. -/
theorem opcodeNumber_of_opcodeOf {n : BitVec 8} {op : Opcode} (h : opcodeOf n = some op) : opcodeNumber op = n := by
  revert n op; decide

end Sys2Proof
end

