-- ==== Sys2Proof/Laws/State.lean ====
section
/-!
SUPPORT. What each update of the state leaves in each field, so that no later proof unfolds a record update.
-/

namespace Sys2Proof.Machine

/-! ### writeReg -/

@[simp] theorem State.writeReg_x (s : State) (i : Fin 8) (v : Word) : (s.writeReg i v).x = s.x.set i.val v i.isLt := rfl
@[simp] theorem State.writeReg_sp (s : State) (i : Fin 8) (v : Word) : (s.writeReg i v).sp = s.sp := rfl
@[simp] theorem State.writeReg_zf (s : State) (i : Fin 8) (v : Word) : (s.writeReg i v).zf = s.zf := rfl
@[simp] theorem State.writeReg_cf (s : State) (i : Fin 8) (v : Word) : (s.writeReg i v).cf = s.cf := rfl
@[simp] theorem State.writeReg_mem (s : State) (i : Fin 8) (v : Word) : (s.writeReg i v).mem = s.mem := rfl
@[simp] theorem State.writeReg_fault (s : State) (i : Fin 8) (v : Word) : (s.writeReg i v).fault = s.fault := rfl
@[simp] theorem State.writeReg_cause (s : State) (i : Fin 8) (v : Word) : (s.writeReg i v).cause = s.cause := rfl
@[simp] theorem State.writeReg_finstr (s : State) (i : Fin 8) (v : Word) : (s.writeReg i v).finstr = s.finstr := rfl
@[simp] theorem State.writeReg_memWords (s : State) (i : Fin 8) (v : Word) : (s.writeReg i v).memWords = s.memWords := rfl
@[simp] theorem State.writeReg_out (s : State) (i : Fin 8) (v : Word) : (s.writeReg i v).out = s.out := rfl
@[simp] theorem State.writeReg_instrDone (s : State) (i : Fin 8) (v : Word) : (s.writeReg i v).instrDone = s.instrDone := rfl
@[simp] theorem State.writeReg_lockReq (s : State) (i : Fin 8) (v : Word) : (s.writeReg i v).lockReq = s.lockReq := rfl
@[simp] theorem State.writeReg_script (s : State) (i : Fin 8) (v : Word) : (s.writeReg i v).script = s.script := rfl
@[simp] theorem State.writeReg_k (s : State) (i : Fin 8) (v : Word) : (s.writeReg i v).k = s.k := rfl
@[simp] theorem State.writeReg_lockGnts (s : State) (i : Fin 8) (v : Word) : (s.writeReg i v).lockGnts = s.lockGnts := rfl
@[simp] theorem State.writeReg_lockGntRest (s : State) (i : Fin 8) (v : Word) : (s.writeReg i v).lockGntRest = s.lockGntRest := rfl
@[simp] theorem State.writeReg_aluA (s : State) (i : Fin 8) (v : Word) : (s.writeReg i v).aluA = s.aluA := rfl
@[simp] theorem State.writeReg_aluB (s : State) (i : Fin 8) (v : Word) : (s.writeReg i v).aluB = s.aluB := rfl
@[simp] theorem State.writeReg_aluMode (s : State) (i : Fin 8) (v : Word) : (s.writeReg i v).aluMode = s.aluMode := rfl
@[simp] theorem State.writeReg_unA (s : State) (i : Fin 8) (v : Word) : (s.writeReg i v).unA = s.unA := rfl
@[simp] theorem State.writeReg_unFn (s : State) (i : Fin 8) (v : Word) : (s.writeReg i v).unFn = s.unFn := rfl
@[simp] theorem State.writeReg_portUses (s : State) (i : Fin 8) (v : Word) : (s.writeReg i v).portUses = s.portUses := rfl

/-! ### writeSp -/

@[simp] theorem State.writeSp_x (s : State) (v : Word) : (s.writeSp v).x = s.x := rfl
@[simp] theorem State.writeSp_sp (s : State) (v : Word) : (s.writeSp v).sp = v := rfl
@[simp] theorem State.writeSp_zf (s : State) (v : Word) : (s.writeSp v).zf = s.zf := rfl
@[simp] theorem State.writeSp_cf (s : State) (v : Word) : (s.writeSp v).cf = s.cf := rfl
@[simp] theorem State.writeSp_mem (s : State) (v : Word) : (s.writeSp v).mem = s.mem := rfl
@[simp] theorem State.writeSp_fault (s : State) (v : Word) : (s.writeSp v).fault = s.fault := rfl
@[simp] theorem State.writeSp_cause (s : State) (v : Word) : (s.writeSp v).cause = s.cause := rfl
@[simp] theorem State.writeSp_finstr (s : State) (v : Word) : (s.writeSp v).finstr = s.finstr := rfl
@[simp] theorem State.writeSp_memWords (s : State) (v : Word) : (s.writeSp v).memWords = s.memWords := rfl
@[simp] theorem State.writeSp_out (s : State) (v : Word) : (s.writeSp v).out = s.out := rfl
@[simp] theorem State.writeSp_instrDone (s : State) (v : Word) : (s.writeSp v).instrDone = s.instrDone := rfl
@[simp] theorem State.writeSp_lockReq (s : State) (v : Word) : (s.writeSp v).lockReq = s.lockReq := rfl
@[simp] theorem State.writeSp_script (s : State) (v : Word) : (s.writeSp v).script = s.script := rfl
@[simp] theorem State.writeSp_k (s : State) (v : Word) : (s.writeSp v).k = s.k := rfl
@[simp] theorem State.writeSp_lockGnts (s : State) (v : Word) : (s.writeSp v).lockGnts = s.lockGnts := rfl
@[simp] theorem State.writeSp_lockGntRest (s : State) (v : Word) : (s.writeSp v).lockGntRest = s.lockGntRest := rfl
@[simp] theorem State.writeSp_aluA (s : State) (v : Word) : (s.writeSp v).aluA = s.aluA := rfl
@[simp] theorem State.writeSp_aluB (s : State) (v : Word) : (s.writeSp v).aluB = s.aluB := rfl
@[simp] theorem State.writeSp_aluMode (s : State) (v : Word) : (s.writeSp v).aluMode = s.aluMode := rfl
@[simp] theorem State.writeSp_unA (s : State) (v : Word) : (s.writeSp v).unA = s.unA := rfl
@[simp] theorem State.writeSp_unFn (s : State) (v : Word) : (s.writeSp v).unFn = s.unFn := rfl
@[simp] theorem State.writeSp_portUses (s : State) (v : Word) : (s.writeSp v).portUses = s.portUses := rfl

/-! ### writeMem -/

@[simp] theorem State.writeMem_x (s : State) (a : Nat) (v : Word) : (s.writeMem a v).x = s.x := rfl
@[simp] theorem State.writeMem_sp (s : State) (a : Nat) (v : Word) : (s.writeMem a v).sp = s.sp := rfl
@[simp] theorem State.writeMem_zf (s : State) (a : Nat) (v : Word) : (s.writeMem a v).zf = s.zf := rfl
@[simp] theorem State.writeMem_cf (s : State) (a : Nat) (v : Word) : (s.writeMem a v).cf = s.cf := rfl
@[simp] theorem State.writeMem_mem (s : State) (a : Nat) (v : Word) : (s.writeMem a v).mem = Memory.write s.mem a v := rfl
@[simp] theorem State.writeMem_fault (s : State) (a : Nat) (v : Word) : (s.writeMem a v).fault = s.fault := rfl
@[simp] theorem State.writeMem_cause (s : State) (a : Nat) (v : Word) : (s.writeMem a v).cause = s.cause := rfl
@[simp] theorem State.writeMem_finstr (s : State) (a : Nat) (v : Word) : (s.writeMem a v).finstr = s.finstr := rfl
@[simp] theorem State.writeMem_memWords (s : State) (a : Nat) (v : Word) : (s.writeMem a v).memWords = s.memWords := rfl
@[simp] theorem State.writeMem_out (s : State) (a : Nat) (v : Word) : (s.writeMem a v).out = s.out := rfl
@[simp] theorem State.writeMem_instrDone (s : State) (a : Nat) (v : Word) : (s.writeMem a v).instrDone = s.instrDone := rfl
@[simp] theorem State.writeMem_lockReq (s : State) (a : Nat) (v : Word) : (s.writeMem a v).lockReq = s.lockReq := rfl
@[simp] theorem State.writeMem_script (s : State) (a : Nat) (v : Word) : (s.writeMem a v).script = s.script := rfl
@[simp] theorem State.writeMem_k (s : State) (a : Nat) (v : Word) : (s.writeMem a v).k = s.k := rfl
@[simp] theorem State.writeMem_lockGnts (s : State) (a : Nat) (v : Word) : (s.writeMem a v).lockGnts = s.lockGnts := rfl
@[simp] theorem State.writeMem_lockGntRest (s : State) (a : Nat) (v : Word) : (s.writeMem a v).lockGntRest = s.lockGntRest := rfl
@[simp] theorem State.writeMem_aluA (s : State) (a : Nat) (v : Word) : (s.writeMem a v).aluA = s.aluA := rfl
@[simp] theorem State.writeMem_aluB (s : State) (a : Nat) (v : Word) : (s.writeMem a v).aluB = s.aluB := rfl
@[simp] theorem State.writeMem_aluMode (s : State) (a : Nat) (v : Word) : (s.writeMem a v).aluMode = s.aluMode := rfl
@[simp] theorem State.writeMem_unA (s : State) (a : Nat) (v : Word) : (s.writeMem a v).unA = s.unA := rfl
@[simp] theorem State.writeMem_unFn (s : State) (a : Nat) (v : Word) : (s.writeMem a v).unFn = s.unFn := rfl
@[simp] theorem State.writeMem_portUses (s : State) (a : Nat) (v : Word) : (s.writeMem a v).portUses = s.portUses := rfl

/-! ### complete -/

@[simp] theorem State.complete_x (s : State) (o : Out) : (s.complete o).x = s.x := rfl
@[simp] theorem State.complete_sp (s : State) (o : Out) : (s.complete o).sp = s.sp := rfl
@[simp] theorem State.complete_zf (s : State) (o : Out) : (s.complete o).zf = s.zf := rfl
@[simp] theorem State.complete_cf (s : State) (o : Out) : (s.complete o).cf = s.cf := rfl
@[simp] theorem State.complete_mem (s : State) (o : Out) : (s.complete o).mem = s.mem := rfl
@[simp] theorem State.complete_fault (s : State) (o : Out) : (s.complete o).fault = s.fault := rfl
@[simp] theorem State.complete_cause (s : State) (o : Out) : (s.complete o).cause = s.cause := rfl
@[simp] theorem State.complete_finstr (s : State) (o : Out) : (s.complete o).finstr = s.finstr := rfl
@[simp] theorem State.complete_memWords (s : State) (o : Out) : (s.complete o).memWords = s.memWords := rfl
@[simp] theorem State.complete_out (s : State) (o : Out) : (s.complete o).out = o := rfl
@[simp] theorem State.complete_instrDone (s : State) (o : Out) : (s.complete o).instrDone = true := rfl
@[simp] theorem State.complete_lockReq (s : State) (o : Out) : (s.complete o).lockReq = false := rfl
@[simp] theorem State.complete_script (s : State) (o : Out) : (s.complete o).script = s.script := rfl
@[simp] theorem State.complete_k (s : State) (o : Out) : (s.complete o).k = s.k := rfl
@[simp] theorem State.complete_lockGnts (s : State) (o : Out) : (s.complete o).lockGnts = s.lockGnts := rfl
@[simp] theorem State.complete_lockGntRest (s : State) (o : Out) : (s.complete o).lockGntRest = s.lockGntRest := rfl
@[simp] theorem State.complete_aluA (s : State) (o : Out) : (s.complete o).aluA = s.aluA := rfl
@[simp] theorem State.complete_aluB (s : State) (o : Out) : (s.complete o).aluB = s.aluB := rfl
@[simp] theorem State.complete_aluMode (s : State) (o : Out) : (s.complete o).aluMode = s.aluMode := rfl
@[simp] theorem State.complete_unA (s : State) (o : Out) : (s.complete o).unA = s.unA := rfl
@[simp] theorem State.complete_unFn (s : State) (o : Out) : (s.complete o).unFn = s.unFn := rfl
@[simp] theorem State.complete_portUses (s : State) (o : Out) : (s.complete o).portUses = s.portUses := rfl

/-! ### raise -/

@[simp] theorem State.raise_x (s : State) (f : FaultCause) (w : InstrWord) : (s.raise f w).x = s.x := rfl
@[simp] theorem State.raise_sp (s : State) (f : FaultCause) (w : InstrWord) : (s.raise f w).sp = s.sp := rfl
@[simp] theorem State.raise_zf (s : State) (f : FaultCause) (w : InstrWord) : (s.raise f w).zf = s.zf := rfl
@[simp] theorem State.raise_cf (s : State) (f : FaultCause) (w : InstrWord) : (s.raise f w).cf = s.cf := rfl
@[simp] theorem State.raise_mem (s : State) (f : FaultCause) (w : InstrWord) : (s.raise f w).mem = s.mem := rfl
@[simp] theorem State.raise_fault (s : State) (f : FaultCause) (w : InstrWord) : (s.raise f w).fault = true := rfl
@[simp] theorem State.raise_cause (s : State) (f : FaultCause) (w : InstrWord) : (s.raise f w).cause = causeCode f := rfl
@[simp] theorem State.raise_finstr (s : State) (f : FaultCause) (w : InstrWord) : (s.raise f w).finstr = w := rfl
@[simp] theorem State.raise_memWords (s : State) (f : FaultCause) (w : InstrWord) : (s.raise f w).memWords = s.memWords := rfl
@[simp] theorem State.raise_out (s : State) (f : FaultCause) (w : InstrWord) : (s.raise f w).out = .none := rfl
@[simp] theorem State.raise_instrDone (s : State) (f : FaultCause) (w : InstrWord) : (s.raise f w).instrDone = true := rfl
@[simp] theorem State.raise_lockReq (s : State) (f : FaultCause) (w : InstrWord) : (s.raise f w).lockReq = false := rfl
@[simp] theorem State.raise_script (s : State) (f : FaultCause) (w : InstrWord) : (s.raise f w).script = s.script := rfl
@[simp] theorem State.raise_k (s : State) (f : FaultCause) (w : InstrWord) : (s.raise f w).k = s.k := rfl
@[simp] theorem State.raise_lockGnts (s : State) (f : FaultCause) (w : InstrWord) : (s.raise f w).lockGnts = s.lockGnts := rfl
@[simp] theorem State.raise_lockGntRest (s : State) (f : FaultCause) (w : InstrWord) : (s.raise f w).lockGntRest = s.lockGntRest := rfl
@[simp] theorem State.raise_aluA (s : State) (f : FaultCause) (w : InstrWord) : (s.raise f w).aluA = s.aluA := rfl
@[simp] theorem State.raise_aluB (s : State) (f : FaultCause) (w : InstrWord) : (s.raise f w).aluB = s.aluB := rfl
@[simp] theorem State.raise_aluMode (s : State) (f : FaultCause) (w : InstrWord) : (s.raise f w).aluMode = s.aluMode := rfl
@[simp] theorem State.raise_unA (s : State) (f : FaultCause) (w : InstrWord) : (s.raise f w).unA = s.unA := rfl
@[simp] theorem State.raise_unFn (s : State) (f : FaultCause) (w : InstrWord) : (s.raise f w).unFn = s.unFn := rfl
@[simp] theorem State.raise_portUses (s : State) (f : FaultCause) (w : InstrWord) : (s.raise f w).portUses = s.portUses := rfl

/-! ### presetFlags -/

@[simp] theorem State.presetFlags_x (s : State) (z c : Bit) : (s.presetFlags z c).x = s.x := rfl
@[simp] theorem State.presetFlags_sp (s : State) (z c : Bit) : (s.presetFlags z c).sp = s.sp := rfl
@[simp] theorem State.presetFlags_zf (s : State) (z c : Bit) : (s.presetFlags z c).zf = z := rfl
@[simp] theorem State.presetFlags_cf (s : State) (z c : Bit) : (s.presetFlags z c).cf = c := rfl
@[simp] theorem State.presetFlags_mem (s : State) (z c : Bit) : (s.presetFlags z c).mem = s.mem := rfl
@[simp] theorem State.presetFlags_fault (s : State) (z c : Bit) : (s.presetFlags z c).fault = s.fault := rfl
@[simp] theorem State.presetFlags_cause (s : State) (z c : Bit) : (s.presetFlags z c).cause = s.cause := rfl
@[simp] theorem State.presetFlags_finstr (s : State) (z c : Bit) : (s.presetFlags z c).finstr = s.finstr := rfl
@[simp] theorem State.presetFlags_memWords (s : State) (z c : Bit) : (s.presetFlags z c).memWords = s.memWords := rfl
@[simp] theorem State.presetFlags_out (s : State) (z c : Bit) : (s.presetFlags z c).out = s.out := rfl
@[simp] theorem State.presetFlags_instrDone (s : State) (z c : Bit) : (s.presetFlags z c).instrDone = s.instrDone := rfl
@[simp] theorem State.presetFlags_lockReq (s : State) (z c : Bit) : (s.presetFlags z c).lockReq = s.lockReq := rfl
@[simp] theorem State.presetFlags_script (s : State) (z c : Bit) : (s.presetFlags z c).script = s.script := rfl
@[simp] theorem State.presetFlags_k (s : State) (z c : Bit) : (s.presetFlags z c).k = s.k := rfl
@[simp] theorem State.presetFlags_lockGnts (s : State) (z c : Bit) : (s.presetFlags z c).lockGnts = s.lockGnts := rfl
@[simp] theorem State.presetFlags_lockGntRest (s : State) (z c : Bit) : (s.presetFlags z c).lockGntRest = s.lockGntRest := rfl
@[simp] theorem State.presetFlags_aluA (s : State) (z c : Bit) : (s.presetFlags z c).aluA = s.aluA := rfl
@[simp] theorem State.presetFlags_aluB (s : State) (z c : Bit) : (s.presetFlags z c).aluB = s.aluB := rfl
@[simp] theorem State.presetFlags_aluMode (s : State) (z c : Bit) : (s.presetFlags z c).aluMode = s.aluMode := rfl
@[simp] theorem State.presetFlags_unA (s : State) (z c : Bit) : (s.presetFlags z c).unA = s.unA := rfl
@[simp] theorem State.presetFlags_unFn (s : State) (z c : Bit) : (s.presetFlags z c).unFn = s.unFn := rfl
@[simp] theorem State.presetFlags_portUses (s : State) (z c : Bit) : (s.presetFlags z c).portUses = s.portUses := rfl

/-! ### driveAlu -/

@[simp] theorem State.driveAlu_x (s : State) (m : BitVec 3) (a b : Word) : (s.driveAlu m a b).x = s.x := rfl
@[simp] theorem State.driveAlu_sp (s : State) (m : BitVec 3) (a b : Word) : (s.driveAlu m a b).sp = s.sp := rfl
@[simp] theorem State.driveAlu_zf (s : State) (m : BitVec 3) (a b : Word) : (s.driveAlu m a b).zf = s.zf := rfl
@[simp] theorem State.driveAlu_cf (s : State) (m : BitVec 3) (a b : Word) : (s.driveAlu m a b).cf = s.cf := rfl
@[simp] theorem State.driveAlu_mem (s : State) (m : BitVec 3) (a b : Word) : (s.driveAlu m a b).mem = s.mem := rfl
@[simp] theorem State.driveAlu_fault (s : State) (m : BitVec 3) (a b : Word) : (s.driveAlu m a b).fault = s.fault := rfl
@[simp] theorem State.driveAlu_cause (s : State) (m : BitVec 3) (a b : Word) : (s.driveAlu m a b).cause = s.cause := rfl
@[simp] theorem State.driveAlu_finstr (s : State) (m : BitVec 3) (a b : Word) : (s.driveAlu m a b).finstr = s.finstr := rfl
@[simp] theorem State.driveAlu_memWords (s : State) (m : BitVec 3) (a b : Word) : (s.driveAlu m a b).memWords = s.memWords := rfl
@[simp] theorem State.driveAlu_out (s : State) (m : BitVec 3) (a b : Word) : (s.driveAlu m a b).out = s.out := rfl
@[simp] theorem State.driveAlu_instrDone (s : State) (m : BitVec 3) (a b : Word) : (s.driveAlu m a b).instrDone = s.instrDone := rfl
@[simp] theorem State.driveAlu_lockReq (s : State) (m : BitVec 3) (a b : Word) : (s.driveAlu m a b).lockReq = s.lockReq := rfl
@[simp] theorem State.driveAlu_script (s : State) (m : BitVec 3) (a b : Word) : (s.driveAlu m a b).script = s.script := rfl
@[simp] theorem State.driveAlu_k (s : State) (m : BitVec 3) (a b : Word) : (s.driveAlu m a b).k = s.k := rfl
@[simp] theorem State.driveAlu_lockGnts (s : State) (m : BitVec 3) (a b : Word) : (s.driveAlu m a b).lockGnts = s.lockGnts := rfl
@[simp] theorem State.driveAlu_lockGntRest (s : State) (m : BitVec 3) (a b : Word) : (s.driveAlu m a b).lockGntRest = s.lockGntRest := rfl
@[simp] theorem State.driveAlu_aluA (s : State) (m : BitVec 3) (a b : Word) : (s.driveAlu m a b).aluA = a := rfl
@[simp] theorem State.driveAlu_aluB (s : State) (m : BitVec 3) (a b : Word) : (s.driveAlu m a b).aluB = b := rfl
@[simp] theorem State.driveAlu_aluMode (s : State) (m : BitVec 3) (a b : Word) : (s.driveAlu m a b).aluMode = m := rfl
@[simp] theorem State.driveAlu_unA (s : State) (m : BitVec 3) (a b : Word) : (s.driveAlu m a b).unA = s.unA := rfl
@[simp] theorem State.driveAlu_unFn (s : State) (m : BitVec 3) (a b : Word) : (s.driveAlu m a b).unFn = s.unFn := rfl
@[simp] theorem State.driveAlu_portUses (s : State) (m : BitVec 3) (a b : Word) : (s.driveAlu m a b).portUses = s.portUses := rfl

/-! ### driveUn -/

@[simp] theorem State.driveUn_x (s : State) (n : BitVec 2) (a : Word) : (s.driveUn n a).x = s.x := rfl
@[simp] theorem State.driveUn_sp (s : State) (n : BitVec 2) (a : Word) : (s.driveUn n a).sp = s.sp := rfl
@[simp] theorem State.driveUn_zf (s : State) (n : BitVec 2) (a : Word) : (s.driveUn n a).zf = s.zf := rfl
@[simp] theorem State.driveUn_cf (s : State) (n : BitVec 2) (a : Word) : (s.driveUn n a).cf = s.cf := rfl
@[simp] theorem State.driveUn_mem (s : State) (n : BitVec 2) (a : Word) : (s.driveUn n a).mem = s.mem := rfl
@[simp] theorem State.driveUn_fault (s : State) (n : BitVec 2) (a : Word) : (s.driveUn n a).fault = s.fault := rfl
@[simp] theorem State.driveUn_cause (s : State) (n : BitVec 2) (a : Word) : (s.driveUn n a).cause = s.cause := rfl
@[simp] theorem State.driveUn_finstr (s : State) (n : BitVec 2) (a : Word) : (s.driveUn n a).finstr = s.finstr := rfl
@[simp] theorem State.driveUn_memWords (s : State) (n : BitVec 2) (a : Word) : (s.driveUn n a).memWords = s.memWords := rfl
@[simp] theorem State.driveUn_out (s : State) (n : BitVec 2) (a : Word) : (s.driveUn n a).out = s.out := rfl
@[simp] theorem State.driveUn_instrDone (s : State) (n : BitVec 2) (a : Word) : (s.driveUn n a).instrDone = s.instrDone := rfl
@[simp] theorem State.driveUn_lockReq (s : State) (n : BitVec 2) (a : Word) : (s.driveUn n a).lockReq = s.lockReq := rfl
@[simp] theorem State.driveUn_script (s : State) (n : BitVec 2) (a : Word) : (s.driveUn n a).script = s.script := rfl
@[simp] theorem State.driveUn_k (s : State) (n : BitVec 2) (a : Word) : (s.driveUn n a).k = s.k := rfl
@[simp] theorem State.driveUn_lockGnts (s : State) (n : BitVec 2) (a : Word) : (s.driveUn n a).lockGnts = s.lockGnts := rfl
@[simp] theorem State.driveUn_lockGntRest (s : State) (n : BitVec 2) (a : Word) : (s.driveUn n a).lockGntRest = s.lockGntRest := rfl
@[simp] theorem State.driveUn_aluA (s : State) (n : BitVec 2) (a : Word) : (s.driveUn n a).aluA = s.aluA := rfl
@[simp] theorem State.driveUn_aluB (s : State) (n : BitVec 2) (a : Word) : (s.driveUn n a).aluB = s.aluB := rfl
@[simp] theorem State.driveUn_aluMode (s : State) (n : BitVec 2) (a : Word) : (s.driveUn n a).aluMode = s.aluMode := rfl
@[simp] theorem State.driveUn_unA (s : State) (n : BitVec 2) (a : Word) : (s.driveUn n a).unA = a := rfl
@[simp] theorem State.driveUn_unFn (s : State) (n : BitVec 2) (a : Word) : (s.driveUn n a).unFn = n := rfl
@[simp] theorem State.driveUn_portUses (s : State) (n : BitVec 2) (a : Word) : (s.driveUn n a).portUses = s.portUses := rfl

/-! ### takeLockAnswer -/

@[simp] theorem State.takeLockAnswer_x (s : State) : (s.takeLockAnswer).x = s.x := rfl
@[simp] theorem State.takeLockAnswer_sp (s : State) : (s.takeLockAnswer).sp = s.sp := rfl
@[simp] theorem State.takeLockAnswer_zf (s : State) : (s.takeLockAnswer).zf = s.zf := rfl
@[simp] theorem State.takeLockAnswer_cf (s : State) : (s.takeLockAnswer).cf = s.cf := rfl
@[simp] theorem State.takeLockAnswer_mem (s : State) : (s.takeLockAnswer).mem = s.mem := rfl
@[simp] theorem State.takeLockAnswer_fault (s : State) : (s.takeLockAnswer).fault = s.fault := rfl
@[simp] theorem State.takeLockAnswer_cause (s : State) : (s.takeLockAnswer).cause = s.cause := rfl
@[simp] theorem State.takeLockAnswer_finstr (s : State) : (s.takeLockAnswer).finstr = s.finstr := rfl
@[simp] theorem State.takeLockAnswer_memWords (s : State) : (s.takeLockAnswer).memWords = s.memWords := rfl
@[simp] theorem State.takeLockAnswer_out (s : State) : (s.takeLockAnswer).out = s.out := rfl
@[simp] theorem State.takeLockAnswer_instrDone (s : State) : (s.takeLockAnswer).instrDone = s.instrDone := rfl
@[simp] theorem State.takeLockAnswer_lockReq (s : State) : (s.takeLockAnswer).lockReq = s.lockReq := rfl
@[simp] theorem State.takeLockAnswer_script (s : State) : (s.takeLockAnswer).script = s.script := rfl
@[simp] theorem State.takeLockAnswer_k (s : State) : (s.takeLockAnswer).k = s.k := rfl
@[simp] theorem State.takeLockAnswer_lockGnts (s : State) : (s.takeLockAnswer).lockGnts = s.lockGnts.tail := rfl
@[simp] theorem State.takeLockAnswer_lockGntRest (s : State) : (s.takeLockAnswer).lockGntRest = s.lockGntRest := rfl
@[simp] theorem State.takeLockAnswer_aluA (s : State) : (s.takeLockAnswer).aluA = s.aluA := rfl
@[simp] theorem State.takeLockAnswer_aluB (s : State) : (s.takeLockAnswer).aluB = s.aluB := rfl
@[simp] theorem State.takeLockAnswer_aluMode (s : State) : (s.takeLockAnswer).aluMode = s.aluMode := rfl
@[simp] theorem State.takeLockAnswer_unA (s : State) : (s.takeLockAnswer).unA = s.unA := rfl
@[simp] theorem State.takeLockAnswer_unFn (s : State) : (s.takeLockAnswer).unFn = s.unFn := rfl
@[simp] theorem State.takeLockAnswer_portUses (s : State) : (s.takeLockAnswer).portUses = s.portUses := rfl

/-! ### hold -/

@[simp] theorem State.hold_x (s : State) : (s.hold).x = s.x := rfl
@[simp] theorem State.hold_sp (s : State) : (s.hold).sp = s.sp := rfl
@[simp] theorem State.hold_zf (s : State) : (s.hold).zf = s.zf := rfl
@[simp] theorem State.hold_cf (s : State) : (s.hold).cf = s.cf := rfl
@[simp] theorem State.hold_mem (s : State) : (s.hold).mem = s.mem := rfl
@[simp] theorem State.hold_fault (s : State) : (s.hold).fault = s.fault := rfl
@[simp] theorem State.hold_cause (s : State) : (s.hold).cause = s.cause := rfl
@[simp] theorem State.hold_finstr (s : State) : (s.hold).finstr = s.finstr := rfl
@[simp] theorem State.hold_memWords (s : State) : (s.hold).memWords = s.memWords := rfl
@[simp] theorem State.hold_out (s : State) : (s.hold).out = .none := rfl
@[simp] theorem State.hold_instrDone (s : State) : (s.hold).instrDone = false := rfl
@[simp] theorem State.hold_lockReq (s : State) : (s.hold).lockReq = true := rfl
@[simp] theorem State.hold_script (s : State) : (s.hold).script = s.script := rfl
@[simp] theorem State.hold_k (s : State) : (s.hold).k = s.k := rfl
@[simp] theorem State.hold_lockGnts (s : State) : (s.hold).lockGnts = s.lockGnts := rfl
@[simp] theorem State.hold_lockGntRest (s : State) : (s.hold).lockGntRest = s.lockGntRest := rfl
@[simp] theorem State.hold_aluA (s : State) : (s.hold).aluA = s.aluA := rfl
@[simp] theorem State.hold_aluB (s : State) : (s.hold).aluB = s.aluB := rfl
@[simp] theorem State.hold_aluMode (s : State) : (s.hold).aluMode = s.aluMode := rfl
@[simp] theorem State.hold_unA (s : State) : (s.hold).unA = s.unA := rfl
@[simp] theorem State.hold_unFn (s : State) : (s.hold).unFn = s.unFn := rfl
@[simp] theorem State.hold_portUses (s : State) : (s.hold).portUses = s.portUses := rfl

/-! ### idleStep -/

@[simp] theorem State.idleStep_x (s : State) : (s.idleStep).x = s.x := rfl
@[simp] theorem State.idleStep_sp (s : State) : (s.idleStep).sp = s.sp := rfl
@[simp] theorem State.idleStep_zf (s : State) : (s.idleStep).zf = s.zf := rfl
@[simp] theorem State.idleStep_cf (s : State) : (s.idleStep).cf = s.cf := rfl
@[simp] theorem State.idleStep_mem (s : State) : (s.idleStep).mem = s.mem := rfl
@[simp] theorem State.idleStep_fault (s : State) : (s.idleStep).fault = s.fault := rfl
@[simp] theorem State.idleStep_cause (s : State) : (s.idleStep).cause = s.cause := rfl
@[simp] theorem State.idleStep_finstr (s : State) : (s.idleStep).finstr = s.finstr := rfl
@[simp] theorem State.idleStep_memWords (s : State) : (s.idleStep).memWords = s.memWords := rfl
@[simp] theorem State.idleStep_out (s : State) : (s.idleStep).out = .none := rfl
@[simp] theorem State.idleStep_instrDone (s : State) : (s.idleStep).instrDone = false := rfl
@[simp] theorem State.idleStep_lockReq (s : State) : (s.idleStep).lockReq = false := rfl
@[simp] theorem State.idleStep_script (s : State) : (s.idleStep).script = s.script := rfl
@[simp] theorem State.idleStep_k (s : State) : (s.idleStep).k = s.k := rfl
@[simp] theorem State.idleStep_lockGnts (s : State) : (s.idleStep).lockGnts = s.lockGnts := rfl
@[simp] theorem State.idleStep_lockGntRest (s : State) : (s.idleStep).lockGntRest = s.lockGntRest := rfl
@[simp] theorem State.idleStep_aluA (s : State) : (s.idleStep).aluA = s.aluA := rfl
@[simp] theorem State.idleStep_aluB (s : State) : (s.idleStep).aluB = s.aluB := rfl
@[simp] theorem State.idleStep_aluMode (s : State) : (s.idleStep).aluMode = s.aluMode := rfl
@[simp] theorem State.idleStep_unA (s : State) : (s.idleStep).unA = s.unA := rfl
@[simp] theorem State.idleStep_unFn (s : State) : (s.idleStep).unFn = s.unFn := rfl
@[simp] theorem State.idleStep_portUses (s : State) : (s.idleStep).portUses = s.portUses := rfl

/-! ### applyReset -/

@[simp] theorem State.applyReset_x (s : State) (regs : Vector Word Config.nregs) (m : Memory) : (s.applyReset regs m).x = regs := rfl
@[simp] theorem State.applyReset_sp (s : State) (regs : Vector Word Config.nregs) (m : Memory) : (s.applyReset regs m).sp = 0#16 := rfl
@[simp] theorem State.applyReset_zf (s : State) (regs : Vector Word Config.nregs) (m : Memory) : (s.applyReset regs m).zf = false := rfl
@[simp] theorem State.applyReset_cf (s : State) (regs : Vector Word Config.nregs) (m : Memory) : (s.applyReset regs m).cf = false := rfl
@[simp] theorem State.applyReset_mem (s : State) (regs : Vector Word Config.nregs) (m : Memory) : (s.applyReset regs m).mem = m := rfl
@[simp] theorem State.applyReset_fault (s : State) (regs : Vector Word Config.nregs) (m : Memory) : (s.applyReset regs m).fault = false := rfl
@[simp] theorem State.applyReset_cause (s : State) (regs : Vector Word Config.nregs) (m : Memory) : (s.applyReset regs m).cause = 0#8 := rfl
@[simp] theorem State.applyReset_finstr (s : State) (regs : Vector Word Config.nregs) (m : Memory) : (s.applyReset regs m).finstr = 0#32 := rfl
@[simp] theorem State.applyReset_memWords (s : State) (regs : Vector Word Config.nregs) (m : Memory) : (s.applyReset regs m).memWords = s.memWords := rfl
@[simp] theorem State.applyReset_out (s : State) (regs : Vector Word Config.nregs) (m : Memory) : (s.applyReset regs m).out = .none := rfl
@[simp] theorem State.applyReset_instrDone (s : State) (regs : Vector Word Config.nregs) (m : Memory) : (s.applyReset regs m).instrDone = false := rfl
@[simp] theorem State.applyReset_lockReq (s : State) (regs : Vector Word Config.nregs) (m : Memory) : (s.applyReset regs m).lockReq = false := rfl
@[simp] theorem State.applyReset_script (s : State) (regs : Vector Word Config.nregs) (m : Memory) : (s.applyReset regs m).script = s.script := rfl
@[simp] theorem State.applyReset_k (s : State) (regs : Vector Word Config.nregs) (m : Memory) : (s.applyReset regs m).k = 0 := rfl
@[simp] theorem State.applyReset_lockGnts (s : State) (regs : Vector Word Config.nregs) (m : Memory) : (s.applyReset regs m).lockGnts = s.lockGnts := rfl
@[simp] theorem State.applyReset_lockGntRest (s : State) (regs : Vector Word Config.nregs) (m : Memory) : (s.applyReset regs m).lockGntRest = s.lockGntRest := rfl
@[simp] theorem State.applyReset_aluA (s : State) (regs : Vector Word Config.nregs) (m : Memory) : (s.applyReset regs m).aluA = s.aluA := rfl
@[simp] theorem State.applyReset_aluB (s : State) (regs : Vector Word Config.nregs) (m : Memory) : (s.applyReset regs m).aluB = s.aluB := rfl
@[simp] theorem State.applyReset_aluMode (s : State) (regs : Vector Word Config.nregs) (m : Memory) : (s.applyReset regs m).aluMode = s.aluMode := rfl
@[simp] theorem State.applyReset_unA (s : State) (regs : Vector Word Config.nregs) (m : Memory) : (s.applyReset regs m).unA = s.unA := rfl
@[simp] theorem State.applyReset_unFn (s : State) (regs : Vector Word Config.nregs) (m : Memory) : (s.applyReset regs m).unFn = s.unFn := rfl
@[simp] theorem State.applyReset_portUses (s : State) (regs : Vector Word Config.nregs) (m : Memory) : (s.applyReset regs m).portUses = s.portUses := rfl

/-! ### advance -/

@[simp] theorem State.advance_x (s : State) : s.advance.x = s.x := by
  unfold State.advance; split <;> rfl
@[simp] theorem State.advance_sp (s : State) : s.advance.sp = s.sp := by
  unfold State.advance; split <;> rfl
@[simp] theorem State.advance_zf (s : State) : s.advance.zf = s.zf := by
  unfold State.advance; split <;> rfl
@[simp] theorem State.advance_cf (s : State) : s.advance.cf = s.cf := by
  unfold State.advance; split <;> rfl
@[simp] theorem State.advance_mem (s : State) : s.advance.mem = s.mem := by
  unfold State.advance; split <;> rfl
@[simp] theorem State.advance_fault (s : State) : s.advance.fault = s.fault := by
  unfold State.advance; split <;> rfl
@[simp] theorem State.advance_cause (s : State) : s.advance.cause = s.cause := by
  unfold State.advance; split <;> rfl
@[simp] theorem State.advance_finstr (s : State) : s.advance.finstr = s.finstr := by
  unfold State.advance; split <;> rfl
@[simp] theorem State.advance_memWords (s : State) : s.advance.memWords = s.memWords := by
  unfold State.advance; split <;> rfl
@[simp] theorem State.advance_out (s : State) : s.advance.out = s.out := by
  unfold State.advance; split <;> rfl
@[simp] theorem State.advance_instrDone (s : State) : s.advance.instrDone = s.instrDone := by
  unfold State.advance; split <;> rfl
@[simp] theorem State.advance_lockReq (s : State) : s.advance.lockReq = s.lockReq := by
  unfold State.advance; split <;> rfl
@[simp] theorem State.advance_script (s : State) : s.advance.script = s.script := by
  unfold State.advance; split <;> rfl
@[simp] theorem State.advance_k (s : State) : s.advance.k = if s.instrDone then s.k + 1 else s.k := by
  unfold State.advance; split <;> rfl
@[simp] theorem State.advance_lockGnts (s : State) : s.advance.lockGnts = s.lockGnts := by
  unfold State.advance; split <;> rfl
@[simp] theorem State.advance_lockGntRest (s : State) : s.advance.lockGntRest = s.lockGntRest := by
  unfold State.advance; split <;> rfl
@[simp] theorem State.advance_aluA (s : State) : s.advance.aluA = s.aluA := by
  unfold State.advance; split <;> rfl
@[simp] theorem State.advance_aluB (s : State) : s.advance.aluB = s.aluB := by
  unfold State.advance; split <;> rfl
@[simp] theorem State.advance_aluMode (s : State) : s.advance.aluMode = s.aluMode := by
  unfold State.advance; split <;> rfl
@[simp] theorem State.advance_unA (s : State) : s.advance.unA = s.unA := by
  unfold State.advance; split <;> rfl
@[simp] theorem State.advance_unFn (s : State) : s.advance.unFn = s.unFn := by
  unfold State.advance; split <;> rfl
@[simp] theorem State.advance_portUses (s : State) : s.advance.portUses = s.portUses := by
  unfold State.advance; split <;> rfl

/-! ### Reads after updates -/

@[simp] theorem State.writeReg_readReg_same (s : State) (i : Fin 8) (v : Word) : (s.writeReg i v).readReg i = v := by
  simp [State.readReg]

theorem State.writeReg_readReg_other (s : State) (i j : Fin 8) (v : Word) (h : j ≠ i) :
    (s.writeReg i v).readReg j = s.readReg j := by
  have : i.val ≠ j.val := fun e => h (Fin.ext e.symm)
  simp [State.readReg, Vector.getElem_set_ne, this]

theorem State.writeReg_readReg (s : State) (i j : Fin 8) (v : Word) :
    (s.writeReg i v).readReg j = if j = i then v else s.readReg j := by
  split
  · subst j; simp
  · exact s.writeReg_readReg_other i j v ‹_›

/-- Two states with the same registers read the same. -/
theorem State.readReg_congr {s t : State} (h : t.x = s.x) (i : Fin 8) : t.readReg i = s.readReg i := by
  simp [State.readReg, h]

/-- Two states with the same memory read the same. -/
theorem State.readMem_congr {s t : State} (h : t.mem = s.mem) (a : Nat) : t.readMem a = s.readMem a := by
  simp [State.readMem, h]

/-- Writing a register the value it holds changes nothing. -/
theorem State.writeReg_readReg_self (s : State) (i : Fin 8) : s.writeReg i (s.readReg i) = s := by
  cases s; simp [State.writeReg, State.readReg]

end Sys2Proof.Machine
end

