-- ==== Sys2Proof/Laws/Operands.lean ====
section
/-!
SUPPORT. What the register operand forms do (30_encoding R74, 60_exceptions R205): the register a field names, or the
InvalidRegisterIndex entry.
-/

namespace Sys2Proof.Machine

@[simp] theorem regIndex_regField (i : Fin 8) : regIndex (regField i) = some i := by
  revert i; decide

@[simp] theorem wf_regField (i : Fin 8) : RegField.wf (regField i) = true := by
  revert i; decide

/-- A field that names no register holds 8 to 15. -/
theorem regIndex_eq_none {r : RegField} : regIndex r = none ↔ 8 ≤ r.toNat := by
  unfold regIndex
  split <;> simp <;> omega

/-- A field that names a register is that register's. -/
theorem regIndex_eq_some {r : RegField} {i : Fin 8} : regIndex r = some i ↔ r = regField i := by
  revert r i; decide

/-- A well-formed register field names a register. -/
theorem exists_regField_of_wf {r : RegField} (h : RegField.wf r = true) : ∃ i : Fin 8, r = regField i := by
  revert r; decide

@[simp] theorem withReg_regField (w : InstrWord) (i : Fin 8) (s : State)
    (body : Fin 8 → Host.Outcome State Fault Refusal) : withReg w (regField i) s body = body i := by
  simp [withReg]

theorem withReg_invalid (w : InstrWord) {r : RegField} (h : 8 ≤ r.toNat) (s : State)
    (body : Fin 8 → Host.Outcome State Fault Refusal) :
    withReg w r s body = .next (s.raise .invalidRegisterIndex w) := by
  simp [withReg, regIndex_eq_none.mpr h]

@[simp] theorem withRegs_regField (w : InstrWord) (i j : Fin 8) (s : State)
    (body : Fin 8 → Fin 8 → Host.Outcome State Fault Refusal) :
    withRegs w (regField i) (regField j) s body = body i j := by
  simp [withRegs]

/-- One bad field of two is enough. -/
theorem withRegs_invalid (w : InstrWord) {r1 r2 : RegField} (h : 8 ≤ r1.toNat ∨ 8 ≤ r2.toNat) (s : State)
    (body : Fin 8 → Fin 8 → Host.Outcome State Fault Refusal) :
    withRegs w r1 r2 s body = .next (s.raise .invalidRegisterIndex w) := by
  unfold withRegs
  by_cases h1 : 8 ≤ r1.toNat
  · exact withReg_invalid w h1 s _
  · obtain ⟨i, rfl⟩ := exists_regField_of_wf (r := r1) (by simp [RegField.wf]; omega)
    rw [withReg_regField]
    exact withReg_invalid w (h.resolve_left h1) s _

/-- Everything an instruction with one register operand can do. -/
theorem withReg_cases (w : InstrWord) (r : RegField) (s : State) (body : Fin 8 → Host.Outcome State Fault Refusal) :
    (∃ i : Fin 8, r = regField i ∧ withReg w r s body = body i) ∨
      (8 ≤ r.toNat ∧ withReg w r s body = .next (s.raise .invalidRegisterIndex w)) := by
  by_cases h : 8 ≤ r.toNat
  · exact .inr ⟨h, withReg_invalid w h s body⟩
  · obtain ⟨i, rfl⟩ := exists_regField_of_wf (r := r) (by simp [RegField.wf]; omega)
    exact .inl ⟨i, rfl, withReg_regField w i s body⟩

/-- Everything an instruction with two register operands can do. -/
theorem withRegs_cases (w : InstrWord) (r1 r2 : RegField) (s : State)
    (body : Fin 8 → Fin 8 → Host.Outcome State Fault Refusal) :
    (∃ i j : Fin 8, r1 = regField i ∧ r2 = regField j ∧ withRegs w r1 r2 s body = body i j) ∨
      ((8 ≤ r1.toNat ∨ 8 ≤ r2.toNat) ∧ withRegs w r1 r2 s body = .next (s.raise .invalidRegisterIndex w)) := by
  by_cases h : 8 ≤ r1.toNat ∨ 8 ≤ r2.toNat
  · exact .inr ⟨h, withRegs_invalid w h s body⟩
  · obtain ⟨i, rfl⟩ := exists_regField_of_wf (r := r1) (by simp [RegField.wf]; omega)
    obtain ⟨j, rfl⟩ := exists_regField_of_wf (r := r2) (by simp [RegField.wf]; omega)
    exact .inl ⟨i, j, rfl, rfl, withRegs_regField w i j s body⟩

end Sys2Proof.Machine
end

