-- ==== Sys2Proof/Laws/Ops.lean ====
section
/-!
SUPPORT. What the memory operations do (20_memory R52): a read after a write, and that every operation keeps the canonical
form and the memory's bounds. Equal contents are equal lists.
-/

namespace Sys2Proof.Machine

theorem Memory.read_cons (a : Nat) (v : Word) (m : Memory) (b : Nat) (h : ∀ c ∈ m, a < c.1) :
    Memory.read (Memory.cons a v m) b = if b = a then v else Memory.read m b := by
  have absent : ∀ m : Memory, (∀ c ∈ m, a < c.1) → Memory.read m a = Memory.unlisted := by
    intro m
    induction m with
    | nil => intro _; rfl
    | cons c rest ih =>
      intro hm
      have hc := hm c (by simp)
      simp only [Memory.read]
      rw [if_neg (by omega)]
      exact ih fun d hd => hm d (by simp [hd])
  unfold Memory.cons
  split
  · split
    · subst b v; exact absent m h
    · rfl
  · rfl

theorem Memory.wfAbove_iff (lo : Nat) (c : Nat × Word) (rest : Memory) :
    Memory.wfAbove lo (c :: rest) = true ↔
      lo ≤ c.1 ∧ c.2 ≠ Memory.unlisted ∧ Memory.wfAbove (c.1 + 1) rest = true := by
  obtain ⟨a, v⟩ := c
  simp [Memory.wfAbove, and_assoc]

theorem Memory.wfAbove_mono {lo lo' : Nat} (h : lo' ≤ lo) (m : Memory) (hm : Memory.wfAbove lo m = true) :
    Memory.wfAbove lo' m = true := by
  cases m with
  | nil => rfl
  | cons c rest =>
    rw [Memory.wfAbove_iff] at hm ⊢
    exact ⟨by omega, hm.2⟩

theorem Memory.lower_bound {lo : Nat} {m : Memory} (hm : Memory.wfAbove lo m = true) : ∀ c ∈ m, lo ≤ c.1 := by
  induction m generalizing lo with
  | nil => simp
  | cons c rest ih =>
    rw [Memory.wfAbove_iff] at hm
    intro d hd
    rcases List.mem_cons.mp hd with rfl | hd
    · exact hm.1
    · have := ih hm.2.2 d hd; omega

/-- An address below every listed one is not listed. -/
theorem Memory.read_below {lo a : Nat} {m : Memory} (hm : Memory.wfAbove lo m = true) (h : a < lo) :
    Memory.read m a = Memory.unlisted := by
  induction m generalizing lo with
  | nil => rfl
  | cons c rest ih =>
    rw [Memory.wfAbove_iff] at hm
    simp only [Memory.read]
    rw [if_neg (by omega)]
    exact ih hm.2.2 (by omega)

theorem Memory.wfAbove_cons {lo a : Nat} {v : Word} {m : Memory} (ha : lo ≤ a)
    (hm : Memory.wfAbove (a + 1) m = true) : Memory.wfAbove lo (Memory.cons a v m) = true := by
  unfold Memory.cons
  split
  · exact Memory.wfAbove_mono (by omega) m hm
  · exact (Memory.wfAbove_iff _ _ _).mpr ⟨ha, ‹_›, hm⟩

theorem Memory.wfAbove_write {lo a : Nat} (v : Word) (m : Memory) (ha : lo ≤ a)
    (hm : Memory.wfAbove lo m = true) : Memory.wfAbove lo (Memory.write m a v) = true := by
  induction m generalizing lo with
  | nil => exact Memory.wfAbove_cons ha rfl
  | cons c rest ih =>
    obtain ⟨b, u⟩ := c
    have h := (Memory.wfAbove_iff _ _ _).mp hm
    simp only [Memory.write]
    split
    · exact Memory.wfAbove_cons ha ((Memory.wfAbove_iff _ _ _).mpr ⟨by omega, h.2⟩)
    · split
      · subst a; exact Memory.wfAbove_cons ha h.2.2
      · exact (Memory.wfAbove_iff _ _ _).mpr ⟨h.1, h.2.1, ih (by simp only at *; omega) h.2.2⟩

/-- A write keeps the canonical form. -/
theorem Memory.wf_write (m : Memory) (a : Nat) (v : Word) (hm : Memory.wf m = true) :
    Memory.wf (Memory.write m a v) = true :=
  Memory.wfAbove_write v m (Nat.zero_le a) hm

/-- The memory of the reset state is in canonical form. -/
theorem Memory.wf_reset : Memory.wf State.reset.mem = true := rfl

theorem Memory.within_iff (words : Nat) (c : Nat × Word) (rest : Memory) :
    Memory.within words (c :: rest) = true ↔ c.1 < words ∧ Memory.within words rest = true := by
  simp [Memory.within]

theorem Memory.within_cons {words a : Nat} {v : Word} {m : Memory} (ha : a < words)
    (hm : Memory.within words m = true) : Memory.within words (Memory.cons a v m) = true := by
  unfold Memory.cons
  split
  · exact hm
  · exact (Memory.within_iff _ _ _).mpr ⟨ha, hm⟩

/-- A write inside the memory lists no cell outside it. -/
theorem Memory.within_write {words : Nat} (m : Memory) (a : Nat) (v : Word) (ha : a < words)
    (hm : Memory.within words m = true) : Memory.within words (Memory.write m a v) = true := by
  induction m with
  | nil => exact Memory.within_cons ha rfl
  | cons c rest ih =>
    obtain ⟨b, u⟩ := c
    have h := (Memory.within_iff _ _ _).mp hm
    simp only [Memory.write]
    split
    · exact Memory.within_cons ha hm
    · split
      · exact Memory.within_cons ha h.2
      · exact (Memory.within_iff _ _ _).mpr ⟨h.1, ih h.2⟩

/-- A read after a write: the Word written at that address, the Word from before at every other (20 R52). -/
theorem Memory.read_write (m : Memory) (a b : Nat) (v : Word) (hm : Memory.wf m = true) :
    Memory.read (Memory.write m a v) b = if b = a then v else Memory.read m b := by
  have main : ∀ (m : Memory) (lo : Nat), Memory.wfAbove lo m = true →
      Memory.read (Memory.write m a v) b = if b = a then v else Memory.read m b := by
    intro m
    induction m with
    | nil => intro _ _; exact Memory.read_cons a v [] b (by simp)
    | cons c rest ih =>
      intro lo hm
      obtain ⟨d, u⟩ := c
      have h := (Memory.wfAbove_iff _ _ _).mp hm
      have hlow := Memory.lower_bound h.2.2
      simp only [Memory.write]
      split
      · refine Memory.read_cons a v _ b fun e he => ?_
        rcases List.mem_cons.mp he with rfl | he
        · assumption
        · have := hlow e he; simp only at *; omega
      · split
        · subst d
          rw [Memory.read_cons a v rest b fun e he => by have := hlow e he; simp only at *; omega]
          simp only [Memory.read]
          split <;> rfl
        · simp only [Memory.read]
          rw [ih _ h.2.2]
          by_cases hb : b = d
          · rw [if_pos hb, if_neg (by omega), if_pos hb]
          · rw [if_neg hb, if_neg hb]
  exact main m 0 hm

end Sys2Proof.Machine
end

