-- ==== Sys2Proof/Laws/Step.lean ====
section
/-!
SUPPORT. Everything a step can do (00_scope R10, R11; 60_exceptions R209; 70_reset_and_hazards R233), said once.
-/

namespace Sys2Proof.Machine

/-- The next event when a port use is pending. -/
theorem nextEvent_port {s : State} {u : PortUse} {rest : List PortUse} (h : s.portUses = u :: rest) :
    s.nextEvent = .port (decodePortUse u) { s with portUses := rest } := by
  simp [State.nextEvent, h]

/-- The next event of a core that is not faulted, no port use pending. -/
theorem nextEvent_core {s : State} (hp : s.portUses = []) (hf : s.fault = false) :
    s.nextEvent =
      match s.presented with
      | none => .idle
      | some w =>
        match decode w with
        | .error f => .badWord f w
        | .ok i => .run i := by
  simp only [State.nextEvent, hp, hf]; rfl

/-- If a step answers a next state, then it served a pending port use; or idled at the script's end; or took the fault of
a word that does not decode; or ran the instruction the presented word decodes to, and the sequencer went on. -/
theorem step_cases {s t : State} (h : step s = .next t) :
    (∃ u rest, s.portUses = u :: rest ∧ exec (decodePortUse u) { s with portUses := rest } = .next t) ∨
    (s.portUses = [] ∧ s.fault = false ∧
      ((s.presented = none ∧ t = s.idleStep) ∨
       (∃ w f, s.presented = some w ∧ decode w = .error f ∧ t = (s.raise (decodeFaultCause f) w).advance) ∨
       (∃ w i u, s.presented = some w ∧ decode w = .ok i ∧ exec i s = .next u ∧ t = u.advance))) := by
  cases hp : s.portUses with
  | cons u rest =>
    refine .inl ⟨u, rest, rfl, ?_⟩
    simpa [step, nextEvent_port hp] using h
  | nil =>
    cases hf : s.fault with
    | true => simp [step, State.nextEvent, hp, hf] at h
    | false =>
      refine .inr ⟨rfl, rfl, ?_⟩
      rw [step, nextEvent_core hp hf] at h
      cases hw : s.presented with
      | none =>
        simp only [hw] at h
        exact .inl ⟨rfl, by injection h with h; exact h.symm⟩
      | some w =>
        cases hd : decode w with
        | error f =>
          simp only [hw, hd] at h
          exact .inr (.inl ⟨w, f, rfl, hd, by injection h with h; exact h.symm⟩)
        | ok i =>
          simp only [hw, hd] at h
          cases he : exec i s with
          | next u =>
            rw [he] at h
            exact .inr (.inr ⟨w, i, u, rfl, hd, he, by injection h with h; exact h.symm⟩)
          | fault f => rw [he] at h; cases h
          | refused r => rw [he] at h; cases h

end Sys2Proof.Machine
end

