-- ==== Sys2Proof/Laws/Exec.lean ====
section
/-!
SUPPORT. Everything an instruction can do, said once: the effects of a well-formed core instruction (42_data_movement
R140 to 47_sync_stubs R191) and of a use of a port (41_alu R139), each with its guard. Later proofs cite these and do
not unfold a meaning.
-/

namespace Sys2Proof.Machine

/-- `CoreEffect s i t`: the core instruction `i` may take `s` to `t`. -/
inductive CoreEffect (s : State) : Instr → State → Prop
  | mov (r : Fin 8) (v : Word) : CoreEffect s (.mov (regField r) v) ((s.writeReg r v).complete .none)
  | jmp (a : Word) : CoreEffect s (.jmp a) ((s.writeSp a).complete .none)
  | jz : CoreEffect s .jz (s.complete (.pred s.zf))
  | jc : CoreEffect s .jc (s.complete (.pred s.cf))
  | push (r : Fin 8) (room : s.sp.toNat < s.memWords) :
      CoreEffect s (.push (regField r))
        (((s.writeMem s.sp.toNat (s.readReg r)).writeSp (s.sp + 1#16)).complete .none)
  | pushFull (r : Fin 8) (full : s.memWords ≤ s.sp.toNat) : CoreEffect s (.push (regField r)) (s.complete .none)
  | pop (r : Fin 8) (some : 0 < s.sp.toNat) (inside : s.sp.toNat ≤ s.memWords) :
      CoreEffect s (.pop (regField r))
        (((s.writeSp (s.sp - 1#16)).writeReg r (s.readMem (s.sp.toNat - 1))).complete .none)
  | popOutside (r : Fin 8) (some : 0 < s.sp.toNat) (outside : s.memWords < s.sp.toNat) :
      CoreEffect s (.pop (regField r)) (s.raise .memoryIndexOutOfRange (wordR .pop (regField r)))
  | popEmpty (r : Fin 8) (empty : s.sp.toNat = 0) : CoreEffect s (.pop (regField r)) (s.complete .none)
  | add (r q : Fin 8) :
      CoreEffect s (.add (regField r) (regField q))
        ((s.writeReg r (alu (s.readReg r) (s.readReg q) false false false)).complete .none)
  | sub (r q : Fin 8) :
      CoreEffect s (.sub (regField r) (regField q))
        ((s.writeReg r (alu (s.readReg r) (s.readReg q) true false false)).complete .none)
  | xchg (r q : Fin 8) :
      CoreEffect s (.xchg (regField r) (regField q))
        (((s.writeReg r (s.readReg q)).writeReg q (s.readReg r)).complete .none)
  | cmpxchg (r q : Fin 8) : CoreEffect s (.cmpxchg (regField r) (regField q)) (s.complete .none)
  | lockGranted (granted : s.lockGranted = true) : CoreEffect s .lock (s.takeLockAnswer.complete .none)
  | lockHeld (held : s.lockGranted = false) : CoreEffect s .lock s.takeLockAnswer.hold
  | cli : CoreEffect s .cli (s.complete (.note noteCli))
  | sti : CoreEffect s .sti (s.complete (.note noteSti))
  | sfence : CoreEffect s .sfence (s.complete (.note noteSfence))
  | lfence : CoreEffect s .lfence (s.complete (.note noteLfence))
  | mfence : CoreEffect s .mfence (s.complete (.note noteMfence))

/-- A well-formed core instruction answers a next state, by one of the effects. -/
theorem exec_core {i : Instr} {w : InstrWord} (hw : i.wellFormed = true) (he : encode i = .word w) (s : State) :
    ∃ t, exec i s = .next t ∧ CoreEffect s i t := by
  cases i <;> simp only [Instr.wellFormed, Bool.and_eq_true] at hw <;> simp only [encode, reduceCtorEq] at he
  case mov reg v =>
    obtain ⟨r, rfl⟩ := exists_regField_of_wf hw
    exact ⟨_, by simp only [exec, execMov, withReg_regField], .mov r v⟩
  case jmp a => exact ⟨_, rfl, .jmp a⟩
  case jz => exact ⟨_, rfl, .jz⟩
  case jc => exact ⟨_, rfl, .jc⟩
  case push reg =>
    obtain ⟨r, rfl⟩ := exists_regField_of_wf hw
    simp only [exec, execPush, withReg_regField]
    split
    · exact ⟨_, rfl, .push r ‹_›⟩
    · exact ⟨_, rfl, .pushFull r (by omega)⟩
  case pop reg =>
    obtain ⟨r, rfl⟩ := exists_regField_of_wf hw
    simp only [exec, execPop, withReg_regField]
    split
    · split
      · exact ⟨_, rfl, .popOutside r ‹_› (by omega)⟩
      · exact ⟨_, rfl, .pop r ‹_› (by omega)⟩
    · exact ⟨_, rfl, .popEmpty r (by omega)⟩
  case add reg1 reg2 =>
    obtain ⟨⟨r, rfl⟩, ⟨q, rfl⟩⟩ := hw.imp exists_regField_of_wf exists_regField_of_wf
    exact ⟨_, by simp only [exec, execAdd, withRegs_regField], .add r q⟩
  case sub reg1 reg2 =>
    obtain ⟨⟨r, rfl⟩, ⟨q, rfl⟩⟩ := hw.imp exists_regField_of_wf exists_regField_of_wf
    exact ⟨_, by simp only [exec, execSub, withRegs_regField], .sub r q⟩
  case xchg reg1 reg2 =>
    obtain ⟨⟨r, rfl⟩, ⟨q, rfl⟩⟩ := hw.imp exists_regField_of_wf exists_regField_of_wf
    exact ⟨_, by simp only [exec, execXchg, withRegs_regField], .xchg r q⟩
  case cmpxchg reg1 reg2 =>
    obtain ⟨⟨r, rfl⟩, ⟨q, rfl⟩⟩ := hw.imp exists_regField_of_wf exists_regField_of_wf
    simp only [exec, execCmpxchg, withRegs_regField]
    split
    · rename_i h
      rw [← h, State.writeReg_readReg_self]
      exact ⟨_, rfl, .cmpxchg r q⟩
    · exact ⟨_, rfl, .cmpxchg r q⟩
  case lock =>
    simp only [exec, execLock]
    split
    · exact ⟨_, rfl, .lockGranted ‹_›⟩
    · exact ⟨_, rfl, .lockHeld (Bool.eq_false_of_not_eq_true ‹_›)⟩
  case cli => exact ⟨_, rfl, .cli⟩
  case sti => exact ⟨_, rfl, .sti⟩
  case sfence => exact ⟨_, rfl, .sfence⟩
  case lfence => exact ⟨_, rfl, .lfence⟩
  case mfence => exact ⟨_, rfl, .mfence⟩

/-- Everything a well-formed core instruction can do. -/
theorem effect_of_exec {i : Instr} {w : InstrWord} {s t : State} (hw : i.wellFormed = true) (he : encode i = .word w)
    (h : exec i s = .next t) : CoreEffect s i t := by
  obtain ⟨u, hu, heff⟩ := exec_core hw he s
  rw [h] at hu
  injection hu with hu
  exact hu ▸ heff

/-- Everything a use of a port can do: it drives that port's input pins. -/
theorem exec_port_cases {u : PortUse} {s t : State} (h : exec (decodePortUse u) s = .next t) :
    (∃ mode a b, u = .alu mode a b ∧ t = s.driveAlu mode a b) ∨ (∃ fn a, u = .un fn a ∧ t = s.driveUn fn a) := by
  cases u with
  | alu mode a b =>
    refine .inl ⟨mode, a, b, rfl, ?_⟩
    revert h
    rw [← aluModeOf_flags mode]
    cases modeSubtract mode <;> cases modeMultiply mode <;> cases modeDivide mode <;>
      (intro h; injection h with h; exact h.symm)
  | un fn a =>
    refine .inr ⟨fn, a, rfl, ?_⟩
    revert h
    have h4 : ∀ n : BitVec 2, n = 0#2 ∨ n = 1#2 ∨ n = 2#2 ∨ n = 3#2 := by decide
    rcases h4 fn with rfl | rfl | rfl | rfl <;> (intro h; injection h with h; exact h.symm)

/-- A use of a port always answers a next state. -/
theorem exec_port_total (u : PortUse) (s : State) : ∃ t, exec (decodePortUse u) s = .next t := by
  cases u with
  | alu mode a b =>
    simp only [decodePortUse]
    split
    · exact ⟨_, rfl⟩
    split
    · exact ⟨_, rfl⟩
    split <;> exact ⟨_, rfl⟩
  | un fn a =>
    have h4 : ∀ n : BitVec 2, n = 0#2 ∨ n = 1#2 ∨ n = 2#2 ∨ n = 3#2 := by decide
    rcases h4 fn with rfl | rfl | rfl | rfl <;> exact ⟨_, rfl⟩

end Sys2Proof.Machine
end

