-- ==== Sys2Proof/Laws/PerInstr.lean ====
section
/-!
SUPPORT. Statements made of each instruction as syntax. `MatchesItsRow`: the encoded form of the instruction has, under the
mask of the instruction's row of spec/opcode_table.json, that row's match bits.
-/

namespace Sys2Proof.Laws

/-- The bits of an encoded form that the opcode table numbers: the instruction word, or the selector of a port's use. -/
def MatchesItsRow.tableBits : Encoded → BitVec 32
  | .word w => w
  | .port (.alu mode _ _) => mode.setWidth 32
  | .port (.un fn _) => fn.setWidth 32

/-- The row of an instruction: its mask and match, from the table. -/
def MatchesItsRow.rowOf : Instr → TableRow
  | .mov _ _ => ⟨"MOV", 0x01000000#32, 0xFF0F0000#32⟩
  | .jmp _ => ⟨"JMP", 0x02000000#32, 0xFFFF0000#32⟩
  | .jz => ⟨"JZ", 0x03000000#32, 0xFFFFFFFF#32⟩
  | .jc => ⟨"JC", 0x04000000#32, 0xFFFFFFFF#32⟩
  | .push _ => ⟨"PUSH", 0x05000000#32, 0xFF0FFFFF#32⟩
  | .pop _ => ⟨"POP", 0x06000000#32, 0xFF0FFFFF#32⟩
  | .add _ _ => ⟨"ADD", 0x07000000#32, 0xFF00FFFF#32⟩
  | .sub _ _ => ⟨"SUB", 0x08000000#32, 0xFF00FFFF#32⟩
  | .xchg _ _ => ⟨"XCHG", 0x09000000#32, 0xFF00FFFF#32⟩
  | .cmpxchg _ _ => ⟨"CMPXCHG", 0x0A000000#32, 0xFF00FFFF#32⟩
  | .lock => ⟨"LOCK", 0x0B000000#32, 0xFFFFFFFF#32⟩
  | .cli => ⟨"CLI", 0x0C000000#32, 0xFFFFFFFF#32⟩
  | .sti => ⟨"STI", 0x0D000000#32, 0xFFFFFFFF#32⟩
  | .sfence => ⟨"SFENCE", 0x0E000000#32, 0xFFFFFFFF#32⟩
  | .lfence => ⟨"LFENCE", 0x0F000000#32, 0xFFFFFFFF#32⟩
  | .mfence => ⟨"MFENCE", 0x10000000#32, 0xFFFFFFFF#32⟩
  | .aluAdd _ _ => ⟨"ALU.ADD", 0#32, 7#32⟩
  | .aluSub _ _ => ⟨"ALU.SUB", 4#32, 7#32⟩
  | .aluMul _ _ _ _ => ⟨"ALU.MUL", 2#32, 2#32⟩
  | .aluDiv _ _ _ => ⟨"ALU.DIV", 1#32, 3#32⟩
  | .inc _ => ⟨"INC", 0#32, 3#32⟩
  | .dec _ => ⟨"DEC", 1#32, 3#32⟩
  | .shl _ => ⟨"SHL", 2#32, 3#32⟩
  | .shr _ => ⟨"SHR", 3#32, 3#32⟩

/-- The encoded instruction matches its row of the opcode table (30_encoding R75, R76, R82, R83). -/
def MatchesItsRow.Statement (i : Instr) : Prop :=
  MatchesItsRow.tableBits (encode i) &&& (MatchesItsRow.rowOf i).mask = (MatchesItsRow.rowOf i).pattern

/-- A packed word under a mask that keeps whole fields. -/
theorem MatchesItsRow.masked (op : BitVec 8) (ra rb ra' rb' : RegField) (imm imm' : Word) (mask pattern : InstrWord)
    (hm : mask = packWord 0xFF#8 ra' rb' imm') (hp : pattern = packWord op 0#4 0#4 0#16)
    (h1 : ra &&& ra' = 0#4) (h2 : rb &&& rb' = 0#4) (h3 : imm &&& imm' = 0#16) :
    packWord op ra rb imm &&& mask = pattern := by
  rw [hm, hp, packWord_and, h1, h2, h3, show op &&& 0xFF#8 = op from BitVec.and_allOnes]

theorem MatchesItsRow.mov (reg : RegField) (value : Word) : MatchesItsRow.Statement (.mov reg value) :=
  MatchesItsRow.masked (opcodeNumber .mov) reg 0#4 0#4 0xF#4 value 0#16 _ _ rfl rfl BitVec.and_zero rfl BitVec.and_zero

theorem MatchesItsRow.jmp (address : Word) : MatchesItsRow.Statement (.jmp address) :=
  MatchesItsRow.masked (opcodeNumber .jmp) 0#4 0#4 0xF#4 0xF#4 address 0#16 _ _ rfl rfl rfl rfl BitVec.and_zero

theorem MatchesItsRow.jz : MatchesItsRow.Statement (.jz) :=
  MatchesItsRow.masked (opcodeNumber .jz) 0#4 0#4 0xF#4 0xF#4 0#16 0xFFFF#16 _ _ rfl rfl rfl rfl rfl

theorem MatchesItsRow.jc : MatchesItsRow.Statement (.jc) :=
  MatchesItsRow.masked (opcodeNumber .jc) 0#4 0#4 0xF#4 0xF#4 0#16 0xFFFF#16 _ _ rfl rfl rfl rfl rfl

theorem MatchesItsRow.push (reg : RegField) : MatchesItsRow.Statement (.push reg) :=
  MatchesItsRow.masked (opcodeNumber .push) reg 0#4 0#4 0xF#4 0#16 0xFFFF#16 _ _ rfl rfl BitVec.and_zero rfl rfl

theorem MatchesItsRow.pop (reg : RegField) : MatchesItsRow.Statement (.pop reg) :=
  MatchesItsRow.masked (opcodeNumber .pop) reg 0#4 0#4 0xF#4 0#16 0xFFFF#16 _ _ rfl rfl BitVec.and_zero rfl rfl

theorem MatchesItsRow.add (reg1 : RegField) (reg2 : RegField) : MatchesItsRow.Statement (.add reg1 reg2) :=
  MatchesItsRow.masked (opcodeNumber .add) reg1 reg2 0#4 0#4 0#16 0xFFFF#16 _ _ rfl rfl BitVec.and_zero BitVec.and_zero rfl

theorem MatchesItsRow.sub (reg1 : RegField) (reg2 : RegField) : MatchesItsRow.Statement (.sub reg1 reg2) :=
  MatchesItsRow.masked (opcodeNumber .sub) reg1 reg2 0#4 0#4 0#16 0xFFFF#16 _ _ rfl rfl BitVec.and_zero BitVec.and_zero rfl

theorem MatchesItsRow.xchg (reg1 : RegField) (reg2 : RegField) : MatchesItsRow.Statement (.xchg reg1 reg2) :=
  MatchesItsRow.masked (opcodeNumber .xchg) reg1 reg2 0#4 0#4 0#16 0xFFFF#16 _ _ rfl rfl BitVec.and_zero BitVec.and_zero rfl

theorem MatchesItsRow.cmpxchg (reg1 : RegField) (reg2 : RegField) : MatchesItsRow.Statement (.cmpxchg reg1 reg2) :=
  MatchesItsRow.masked (opcodeNumber .cmpxchg) reg1 reg2 0#4 0#4 0#16 0xFFFF#16 _ _ rfl rfl BitVec.and_zero BitVec.and_zero rfl

theorem MatchesItsRow.lock : MatchesItsRow.Statement (.lock) :=
  MatchesItsRow.masked (opcodeNumber .lock) 0#4 0#4 0xF#4 0xF#4 0#16 0xFFFF#16 _ _ rfl rfl rfl rfl rfl

theorem MatchesItsRow.cli : MatchesItsRow.Statement (.cli) :=
  MatchesItsRow.masked (opcodeNumber .cli) 0#4 0#4 0xF#4 0xF#4 0#16 0xFFFF#16 _ _ rfl rfl rfl rfl rfl

theorem MatchesItsRow.sti : MatchesItsRow.Statement (.sti) :=
  MatchesItsRow.masked (opcodeNumber .sti) 0#4 0#4 0xF#4 0xF#4 0#16 0xFFFF#16 _ _ rfl rfl rfl rfl rfl

theorem MatchesItsRow.sfence : MatchesItsRow.Statement (.sfence) :=
  MatchesItsRow.masked (opcodeNumber .sfence) 0#4 0#4 0xF#4 0xF#4 0#16 0xFFFF#16 _ _ rfl rfl rfl rfl rfl

theorem MatchesItsRow.lfence : MatchesItsRow.Statement (.lfence) :=
  MatchesItsRow.masked (opcodeNumber .lfence) 0#4 0#4 0xF#4 0xF#4 0#16 0xFFFF#16 _ _ rfl rfl rfl rfl rfl

theorem MatchesItsRow.mfence : MatchesItsRow.Statement (.mfence) :=
  MatchesItsRow.masked (opcodeNumber .mfence) 0#4 0#4 0xF#4 0xF#4 0#16 0xFFFF#16 _ _ rfl rfl rfl rfl rfl

theorem MatchesItsRow.aluAdd (a : Word) (b : Word) : MatchesItsRow.Statement (.aluAdd a b) := by
  simp only [MatchesItsRow.Statement, MatchesItsRow.tableBits, MatchesItsRow.rowOf, encode]; decide

theorem MatchesItsRow.aluSub (a : Word) (b : Word) : MatchesItsRow.Statement (.aluSub a b) := by
  simp only [MatchesItsRow.Statement, MatchesItsRow.tableBits, MatchesItsRow.rowOf, encode]; decide

theorem MatchesItsRow.aluMul (a : Word) (b : Word) (subtract : Bool) (divide : Bool) : MatchesItsRow.Statement (.aluMul a b subtract divide) := by
  simp only [MatchesItsRow.Statement, MatchesItsRow.tableBits, MatchesItsRow.rowOf, encode]; cases subtract <;> cases divide <;> decide

theorem MatchesItsRow.aluDiv (a : Word) (b : Word) (subtract : Bool) : MatchesItsRow.Statement (.aluDiv a b subtract) := by
  simp only [MatchesItsRow.Statement, MatchesItsRow.tableBits, MatchesItsRow.rowOf, encode]; cases subtract <;> decide

theorem MatchesItsRow.inc (a : Word) : MatchesItsRow.Statement (.inc a) := by
  simp only [MatchesItsRow.Statement, MatchesItsRow.tableBits, MatchesItsRow.rowOf, encode]; decide

theorem MatchesItsRow.dec (a : Word) : MatchesItsRow.Statement (.dec a) := by
  simp only [MatchesItsRow.Statement, MatchesItsRow.tableBits, MatchesItsRow.rowOf, encode]; decide

theorem MatchesItsRow.shl (a : Word) : MatchesItsRow.Statement (.shl a) := by
  simp only [MatchesItsRow.Statement, MatchesItsRow.tableBits, MatchesItsRow.rowOf, encode]; decide

theorem MatchesItsRow.shr (a : Word) : MatchesItsRow.Statement (.shr a) := by
  simp only [MatchesItsRow.Statement, MatchesItsRow.tableBits, MatchesItsRow.rowOf, encode]; decide

end Sys2Proof.Laws
end

