-- ==== Sys2Proof/Machine/Assembler.lean ====
section
/-!
DEFINITION. The textual form of the 16 core operations (30_encoding R80, R81; 92 D23): the call form, registers as decimal
indices 0 to 7, values and addresses as decimal or `0x` numerals 0 to 65535, empty parentheses or none for an operation
without operands, a comment from `;` to the end of the line, one instruction a line. Text is a list of characters. Blanks
are left out wherever they stand (log 24). There are no pseudo-instructions.
-/

namespace Sys2Proof.Machine

/-- A line as it is read: blanks left out, cut at `;`. DESIGN CHOICE (log 24): blanks, tabs and carriage returns are left
out between the parts and inside a mnemonic or a numeral alike, on which R80 is silent. -/
def asmStrip : List Char → List Char
  | [] => []
  | c :: rest => if c = ';' then [] else if c = ' ' ∨ c = '\t' ∨ c = '\r' then asmStrip rest else c :: asmStrip rest

/-- The characters before the first `sep`, and those after it if there is one. -/
def asmCut (sep : Char) : List Char → List Char × Option (List Char)
  | [] => ([], none)
  | c :: rest =>
    if c = sep then ([], some rest)
    else (c :: (asmCut sep rest).1, (asmCut sep rest).2)

/-- The value of a digit. -/
def asmDigit (c : Char) : Option Nat :=
  if '0'.toNat ≤ c.toNat ∧ c.toNat ≤ '9'.toNat then some (c.toNat - '0'.toNat)
  else if 'a'.toNat ≤ c.toNat ∧ c.toNat ≤ 'f'.toNat then some (c.toNat - 'a'.toNat + 10)
  else if 'A'.toNat ≤ c.toNat ∧ c.toNat ≤ 'F'.toNat then some (c.toNat - 'A'.toNat + 10)
  else none

/-- A numeral's digits in a base, the most significant first, on top of `acc`. -/
def asmDigits (base : Nat) : Nat → List Char → Option Nat
  | acc, [] => some acc
  | acc, c :: rest =>
    match asmDigit c with
    | none => none
    | some d => if d < base then asmDigits base (acc * base + d) rest else none

/-- A decimal numeral. -/
def asmDecimal : List Char → Option Nat
  | [] => none
  | c :: rest => asmDigits 10 0 (c :: rest)

/-- A decimal or `0x` numeral. -/
def asmNumber : List Char → Option Nat
  | '0' :: 'x' :: c :: rest => asmDigits 16 0 (c :: rest)
  | text => asmDecimal text

/-- A register operand: a decimal index 0 to 7. -/
def asmReg (text : List Char) : Option RegField :=
  match asmDecimal text with
  | none => none
  | some n => if n < 8 then some (BitVec.ofNat 4 n) else none

/-- A value or an address: 0 to 65535. -/
def asmWord (text : List Char) : Option Word :=
  match asmNumber text with
  | none => none
  | some n => if n < 65536 then some (BitVec.ofNat 16 n) else none

/-- The mnemonics (R75). -/
def asmMnemonics : List (List Char × Opcode) :=
  [(['M','O','V'], .mov), (['J','M','P'], .jmp), (['J','Z'], .jz), (['J','C'], .jc), (['P','U','S','H'], .push),
   (['P','O','P'], .pop), (['A','D','D'], .add), (['S','U','B'], .sub), (['X','C','H','G'], .xchg)] ++
  [(['C','M','P','X','C','H','G'], .cmpxchg), (['L','O','C','K'], .lock), (['C','L','I'], .cli), (['S','T','I'], .sti),
   (['S','F','E','N','C','E'], .sfence), (['L','F','E','N','C','E'], .lfence), (['M','F','E','N','C','E'], .mfence)]

/-- The operands between the parentheses; `none` for text that is not a call form. -/
def asmOperands : Option (List Char) → Option (List (List Char))
  | none => some []
  | some inner =>
    match asmCut ')' inner with
    | ([], some []) => some []
    | (args, some []) =>
      match asmCut ',' args with
      | (one, none) => some [one]
      | (one, some two) => some [one, two]
    | _ => none

/-- The instruction of an operation and its operands' text, by the operand shape (R72). -/
def asmInstr (op : Opcode) (args : List (List Char)) : Option Instr :=
  match opcodeShape op, args with
  | .z, [] => some (instrOfFields op 0#4 0#4 0#16)
  | .i, [a] => (asmWord a).map fun v => instrOfFields op 0#4 0#4 v
  | .r, [a] => (asmReg a).map fun r => instrOfFields op r 0#4 0#16
  | .rr, [a, b] => (asmReg a).bind fun r => (asmReg b).map fun q => instrOfFields op r q 0#16
  | .ri, [a, b] => (asmReg a).bind fun r => (asmWord b).map fun v => instrOfFields op r 0#4 v
  | _, _ => none

/-- One line that holds an instruction (R80). -/
def asmLine (line : List Char) : Option Instr :=
  let cut := asmCut '(' (asmStrip line)
  match asmMnemonics.lookup cut.1 with
  | none => none
  | some op => (asmOperands cut.2).bind fun args => asmInstr op args

/-- A program's words, top to bottom; lines with nothing on them are left out (R80, R81). -/
def assemble : List (List Char) → Option (List InstrWord)
  | [] => some []
  | line :: rest =>
    if (asmStrip line).isEmpty then assemble rest
    else
      match (asmLine line).map encode, assemble rest with
      | some (.word w), some ws => some (w :: ws)
      | _, _ => none

end Sys2Proof.Machine
end

