-- ==== Sys2Proof/Tests/Slice0.lean ====
section
/-!
SUPPORT. Tests of one step or one function each, their expected results taken from spec/95_test_vectors (part A, and part B
by its row names M1, J9, S2, ...), and the witnesses that the hypotheses of the obligations are met.
-/

namespace Sys2Proof.Tests

open Sys2Proof Sys2Proof.Machine

/-! ### Small states and what a test looks at -/

/-- The state most rows of part B start from: four cells, `sp` as given. -/
def std (sp : Word) : State :=
  { State.reset with
    x := #v[0x1000#16, 0x1111#16, 0x2222#16, 0x3333#16, 0x4444#16, 0x5555#16, 0x6666#16, 0x7777#16]
    sp := sp
    memWords := 4
    mem := [(0, 0xAAA0#16), (1, 0xAAA1#16), (2, 0xAAA2#16), (3, 0xAAA3#16)] }

/-- That state with `x[0]`, `x[1]` and the flags as given. -/
def std2 (x0 x1 : Word) (flags : Bit) : State :=
  { std 0#16 with x := ((std 0#16).x.set 0 x0).set 1 x1, zf := flags, cf := flags }

/-- The state without what the sequencer leaves behind. -/
def seen (t : State) : State := { t with script := [], k := 0, instrDone := false, lockReq := false }

/-- One step with this word presented, as `seen`. -/
def run1 (s : State) (w : InstrWord) : Option State :=
  match step (s.load (.word w)) with
  | .next t => some (seen t)
  | .fault _ => none
  | .refused _ => none

/-- The state after a fault of this cause. -/
def faulted (s : State) (cause : BitVec 8) (w : InstrWord) : State :=
  { s with fault := true, cause := cause, finstr := w }

/-- The outputs of the two ports after one step that serves this use. -/
def port1 (s : State) (u : PortUse) : Option (Word × Word) :=
  match step (s.load (.port u)) with
  | .next t => some (t.aluY, t.unY)
  | .fault _ => none
  | .refused _ => none

/-! ### Well-formedness: an ill-formed term for each check -/

theorem test_wellFormed_refuses_one_register :
    (Instr.mov 8#4 0#16).wellFormed = false ∧ (Instr.push 8#4).wellFormed = false ∧
      (Instr.pop 15#4).wellFormed = false := by decide

theorem test_wellFormed_refuses_first_of_two :
    (Instr.add 8#4 0#4).wellFormed = false ∧ (Instr.sub 9#4 0#4).wellFormed = false ∧
      (Instr.xchg 15#4 7#4).wellFormed = false ∧ (Instr.cmpxchg 8#4 7#4).wellFormed = false := by decide

theorem test_wellFormed_refuses_second_of_two :
    (Instr.add 0#4 8#4).wellFormed = false ∧ (Instr.sub 0#4 9#4).wellFormed = false ∧
      (Instr.xchg 7#4 15#4).wellFormed = false ∧ (Instr.cmpxchg 7#4 8#4).wellFormed = false := by decide

theorem test_wellFormed_takes_register_seven :
    (Instr.mov 7#4 0xFFFF#16).wellFormed = true ∧ (Instr.xchg 7#4 7#4).wellFormed = true := by decide

/-! ### Decoding: words written out from R71 and R75, opcode, ra, rb and imm16 bit by bit -/

theorem test_decode_mov : decode 0b00000001_0111_0000_1000000000000001#32 = .ok (.mov 7#4 0x8001#16) := by decide
theorem test_decode_jmp : decode 0b00000010_0000_0000_1111111111111111#32 = .ok (.jmp 0xFFFF#16) := by decide
theorem test_decode_jz : decode 0b00000011_0000_0000_0000000000000000#32 = .ok .jz := by decide
theorem test_decode_jc : decode 0b00000100_0000_0000_0000000000000000#32 = .ok .jc := by decide
theorem test_decode_push : decode 0b00000101_0111_0000_0000000000000000#32 = .ok (.push 7#4) := by decide
theorem test_decode_pop : decode 0b00000110_0010_0000_0000000000000000#32 = .ok (.pop 2#4) := by decide
theorem test_decode_add : decode 0b00000111_0001_0110_0000000000000000#32 = .ok (.add 1#4 6#4) := by decide
theorem test_decode_sub : decode 0b00001000_0010_0001_0000000000000000#32 = .ok (.sub 2#4 1#4) := by decide
theorem test_decode_xchg : decode 0b00001001_0111_0000_0000000000000000#32 = .ok (.xchg 7#4 0#4) := by decide
theorem test_decode_cmpxchg : decode 0b00001010_0000_0111_0000000000000000#32 = .ok (.cmpxchg 0#4 7#4) := by decide
theorem test_decode_lock : decode 0b00001011_0000_0000_0000000000000000#32 = .ok .lock := by decide
theorem test_decode_cli : decode 0b00001100_0000_0000_0000000000000000#32 = .ok .cli := by decide
theorem test_decode_sti : decode 0b00001101_0000_0000_0000000000000000#32 = .ok .sti := by decide
theorem test_decode_sfence : decode 0b00001110_0000_0000_0000000000000000#32 = .ok .sfence := by decide
theorem test_decode_lfence : decode 0b00001111_0000_0000_0000000000000000#32 = .ok .lfence := by decide
theorem test_decode_mfence : decode 0b00010000_0000_0000_0000000000000000#32 = .ok .mfence := by decide

/-- 30 R82, one mode for each of the four operations and an overridden flag. -/
theorem test_decode_alu_modes :
    decodePortUse (.alu 0b000#3 5#16 3#16) = .aluAdd 5#16 3#16 ∧
      decodePortUse (.alu 0b100#3 5#16 3#16) = .aluSub 5#16 3#16 ∧
      decodePortUse (.alu 0b011#3 5#16 3#16) = .aluMul 5#16 3#16 false true ∧
      decodePortUse (.alu 0b101#3 5#16 3#16) = .aluDiv 5#16 3#16 true := by decide

/-- 30 R83. -/
theorem test_decode_unary_selectors :
    decodePortUse (.un 0#2 9#16) = .inc 9#16 ∧ decodePortUse (.un 1#2 9#16) = .dec 9#16 ∧
      decodePortUse (.un 2#2 9#16) = .shl 9#16 ∧ decodePortUse (.un 3#2 9#16) = .shr 9#16 := by decide

/-- 95 B11, the words that are illegal. -/
theorem test_decode_b11_illegal :
    ([0x00000000#32, 0xFFFFFFFF#32, 0x11000000#32, 0x80000000#32, 0x0101000A#32, 0x02010000#32, 0x03100000#32,
      0x05710000#32, 0x07880001#32, 0x10000100#32, 0x0B0F0000#32].all fun w =>
      decide (decode w = .error .illegalInstruction)) = true := by decide

/-- 95 B11, the words with a register field that names none. -/
theorem test_decode_b11_registers :
    ([0x0180000A#32, 0x01F0000A#32, 0x05800000#32, 0x07780000#32, 0x07870000#32, 0x07880000#32].all fun w =>
      decide (decode w = .error .invalidRegisterIndex)) = true := by decide

/-- 30 R79 on the words of 30 R75's examples. -/
theorem test_encode_words :
    encode (.mov 0#4 10#16) = .word 0x0100000A#32 ∧ encode (.jmp 3#16) = .word 0x02000003#32 ∧
      encode (.pop 2#4) = .word 0x06200000#32 ∧ encode (.sub 2#4 1#4) = .word 0x08210000#32 ∧
      encode .mfence = .word 0x10000000#32 := by decide

/-- A word of 32 bits, then the ports' selectors (log 12). -/
theorem test_decodeTableWord :
    decodeTableWord 32 0x07010000 = some (.add 0#4 1#4) ∧ decodeTableWord 32 0 = none ∧
      decodeTableWord 8 2 = some (.shl 0#16) ∧ decodeTableWord 8 4 = some (.aluSub 0#16 0#16) ∧
      decodeTableWord 3 0 = some (.aluAdd 0#16 0#16) := by decide

/-- The fetched word is what runs first after reset. -/
theorem test_withFetchWord_runs_first :
    (∃ t, step (State.reset.withFetchWord 32 0x0170FFFF) = .next t ∧ t.readReg 7 = 0xFFFF#16) ∧
      (∃ t, step (State.reset.withFetchWord 8 1) = .next t ∧ t.unY = 0xFFFF#16) :=
  ⟨⟨_, rfl, by decide⟩, ⟨_, rfl, by decide⟩⟩

/-! ### Gates, adders, the ALU (95 B1 to B4) -/

/-- 95 B1, the columns AND, OR, XOR, NAND, NOR, XNOR, XAND, NXAND. -/
theorem test_gates :
    ([((false, false), [false, false, false, true, true, true, false, true]),
      ((false, true), [false, true, true, true, false, false, false, true]),
      ((true, false), [false, true, true, true, false, false, true, false]),
      ((true, true), [true, true, false, false, false, true, false, true])].all fun row =>
      decide ([gateAnd row.1.1 row.1.2, gateOr row.1.1 row.1.2, gateXor row.1.1 row.1.2, gateNand row.1.1 row.1.2,
        gateNor row.1.1 row.1.2, gateXnor row.1.1 row.1.2, gateXand row.1.1 row.1.2, gateNxand row.1.1 row.1.2] =
        row.2)) = true := by decide

theorem test_gateNot : gateNot false = true ∧ gateNot true = false := by decide

/-- 95 B2. -/
theorem test_halfAdder :
    halfAdder false false = ⟨false, false⟩ ∧ halfAdder false true = ⟨true, false⟩ ∧
      halfAdder true false = ⟨true, false⟩ ∧ halfAdder true true = ⟨false, true⟩ := by decide

/-- 95 B2, the rows of one, two and three operands that are 1. -/
theorem test_fullAdder :
    fullAdder false false true = ⟨true, false⟩ ∧ fullAdder false true true = ⟨false, true⟩ ∧
      fullAdder true true false = ⟨false, true⟩ ∧ fullAdder true true true = ⟨true, true⟩ := by decide

/-- 95 B3.2: A, B, add, its last carry, subtract, its last carry. -/
theorem test_add_and_subtract :
    ([(0xFFFF#16, 0x0001#16, 0x0000#16, true, 0xFFFE#16, true),
      (0x1234#16, 0x4321#16, 0x5555#16, false, 0xCF13#16, false),
      (0xABCD#16, 0x0F0F#16, 0xBADC#16, false, 0x9CBE#16, true),
      (0x8000#16, 0xFFFF#16, 0x7FFF#16, true, 0x8001#16, false),
      (0x04D2#16, 0x0000#16, 0x04D2#16, false, 0x04D2#16, true)].all fun row =>
      decide (addSub row.1 row.2.1 false = row.2.2.1 ∧ carryOut row.1 row.2.1 false = row.2.2.2.1 ∧
        addSub row.1 row.2.1 true = row.2.2.2.2.1 ∧ carryOut row.1 row.2.1 true = row.2.2.2.2.2)) = true := by decide

/-- 95 B3.3: A, B, multiply, divide. -/
theorem test_multiply_and_divide :
    ([(0x1234#16, 0x4321#16, 0xF4B4#16, 0x0000#16), (0xFFFF#16, 0xFFFF#16, 0x0001#16, 0x0001#16),
      (0xABCD#16, 0x0F0F#16, 0x1403#16, 0x000B#16), (0x8000#16, 0xFFFF#16, 0x8000#16, 0x0000#16),
      (0xFFFF#16, 0x0000#16, 0x0000#16, 0x0000#16), (0x03E8#16, 0x0007#16, 0x1B58#16, 0x008E#16)].all fun row =>
      decide (mulWord row.1 row.2.1 = row.2.2.1 ∧ divWord row.1 row.2.1 = row.2.2.2)) = true := by decide

/-- 95 B3.4, the eight modes at A = 100, B = 7. -/
theorem test_alu_precedence :
    ([(0b000#3, 0x006B#16), (0b001#3, 0x000E#16), (0b010#3, 0x02BC#16), (0b011#3, 0x02BC#16),
      (0b100#3, 0x005D#16), (0b101#3, 0x000E#16), (0b110#3, 0x02BC#16), (0b111#3, 0x02BC#16)].all fun row =>
      decide (alu 100#16 7#16 (modeSubtract row.1) (modeMultiply row.1) (modeDivide row.1) = row.2)) = true := by decide

/-- 95 B4: A, INC, DEC, SHL, SHR. -/
theorem test_unary_functions :
    ([(0x0000#16, 0x0001#16, 0xFFFF#16, 0x0000#16, 0x0000#16),
      (0xFFFF#16, 0x0000#16, 0xFFFE#16, 0xFFFE#16, 0x7FFF#16),
      (0x8001#16, 0x8002#16, 0x8000#16, 0x0002#16, 0x4000#16)].all fun row =>
      decide (incWord row.1 = row.2.1 ∧ decWord row.1 = row.2.2.1 ∧ shlWord row.1 = row.2.2.2.1 ∧
        shrWord row.1 = row.2.2.2.2)) = true := by decide

/-! ### One step of each instruction (95 B5 to B10) -/

/-- M1 -/
theorem test_mov_first_register :
    run1 (std 0#16) 0x0100000A#32 = some { std 0#16 with x := (std 0#16).x.set 0 0x000A#16 } := by decide
/-- M5 -/
theorem test_mov_bad_register :
    run1 (std 0#16) 0x01800001#32 = some (faulted (std 0#16) 2#8 0x01800001#32) := by decide
/-- J4 -/
theorem test_jmp_above_memory : run1 (std 1#16) 0x0200FFFF#32 = some (std 0xFFFF#16) := by decide
/-- J6 -/
theorem test_jmp_unused_field :
    run1 (std 0#16) 0x02100000#32 = some (faulted (std 0#16) 1#8 0x02100000#32) := by decide
/-- J8 -/
theorem test_jz_reports_zf :
    run1 { std 0#16 with zf := true } 0x03000000#32 = some { std 0#16 with zf := true, out := .pred true } := by decide
/-- J12 -/
theorem test_jz_unused_field :
    run1 (std 0#16) 0x03000001#32 = some (faulted (std 0#16) 1#8 0x03000001#32) := by decide
/-- J9 -/
theorem test_jc_is_separate_from_zf :
    run1 { std 0#16 with zf := true } 0x04000000#32 = some { std 0#16 with zf := true, out := .pred false } := by decide
/-- J10 -/
theorem test_jc_reports_cf :
    run1 { std 0#16 with cf := true } 0x04000000#32 = some { std 0#16 with cf := true, out := .pred true } := by decide
/-- S2 -/
theorem test_push_last_free_cell :
    run1 (std 3#16) 0x05700000#32 =
      some { std 4#16 with mem := Memory.write (std 3#16).mem 3 0x7777#16 } := by decide
/-- S3 -/
theorem test_push_full_does_nothing : run1 (std 4#16) 0x05100000#32 = some (std 4#16) := by decide
/-- S5 -/
theorem test_pop_top_cell :
    run1 (std 4#16) 0x06000000#32 = some { std 3#16 with x := (std 3#16).x.set 0 0xAAA3#16 } := by decide
/-- S9 -/
theorem test_pop_outside_memory :
    run1 (std 6#16) 0x06200000#32 = some (faulted (std 6#16) 3#8 0x06200000#32) := by decide
/-- A5 -/
theorem test_add_high_registers :
    run1 (std 0#16) 0x07760000#32 = some { std 0#16 with x := (std 0#16).x.set 7 0xDDDD#16 } := by decide
/-- A3 -/
theorem test_add_to_itself_doubles :
    run1 (std2 0x8000#16 0#16 false) 0x07000000#32 = some (std2 0#16 0#16 false) := by decide
/-- A7 -/
theorem test_sub_wraps :
    run1 (std2 0#16 1#16 false) 0x08010000#32 = some (std2 0xFFFF#16 1#16 false) := by decide
/-- A9 -/
theorem test_sub_leaves_preset_flags :
    run1 (std2 5#16 10#16 true) 0x08010000#32 = some (std2 0xFFFB#16 10#16 true) := by decide
/-- X2 -/
theorem test_xchg_swaps :
    run1 (std 0#16) 0x09700000#32 =
      some { std 0#16 with x := ((std 0#16).x.set 0 0x7777#16).set 7 0x1000#16 } := by decide
/-- X3 -/
theorem test_xchg_same_register : run1 (std 0#16) 0x09330000#32 = some (std 0#16) := by decide
/-- X4 -/
theorem test_cmpxchg_unequal : run1 (std 0#16) 0x0A010000#32 = some (std 0#16) := by decide
/-- X5 -/
theorem test_cmpxchg_equal :
    run1 (std2 7#16 7#16 false) 0x0A010000#32 = some (std2 7#16 7#16 false) := by decide
/-- Y1 -/
theorem test_lock_granted : run1 (std 2#16) 0x0B000000#32 = some (std 2#16) := by decide
/-- Y1 with LOCK_GRANT 0: held, the word still presented. -/
theorem test_lock_held :
    ∃ t, step ({ std 2#16 with lockGntRest := false }.load (.word 0x0B000000#32)) = .next t ∧ t.lockReq = true ∧
      t.instrDone = false ∧ t.k = 0 ∧ t.fault = false := ⟨_, rfl, by decide⟩
/-- Y7 -/
theorem test_cli_leaves_flags :
    run1 (std2 0#16 0#16 true) 0x0C000000#32 = some { std2 0#16 0#16 true with out := .note 1#3 } := by decide
/-- Y3 -/
theorem test_sti_notifies : run1 (std 2#16) 0x0D000000#32 = some { std 2#16 with out := .note 2#3 } := by decide
/-- Y4 -/
theorem test_sfence_notifies : run1 (std 2#16) 0x0E000000#32 = some { std 2#16 with out := .note 3#3 } := by decide
/-- Y5 -/
theorem test_lfence_notifies : run1 (std 2#16) 0x0F000000#32 = some { std 2#16 with out := .note 4#3 } := by decide
/-- Y6 -/
theorem test_mfence_notifies : run1 (std 2#16) 0x10000000#32 = some { std 2#16 with out := .note 5#3 } := by decide
/-- S14, S16: decode first. -/
theorem test_decode_before_guards :
    run1 (std 4#16) 0x05900000#32 = some (faulted (std 4#16) 2#8 0x05900000#32) ∧
      run1 (std 6#16) 0x06900000#32 = some (faulted (std 6#16) 2#8 0x06900000#32) := by decide

/-- 95 B3.4 through the port; the unary port's output stays. -/
theorem test_alu_port :
    port1 (std 0#16) (.alu 0b000#3 100#16 7#16) = some (0x006B#16, 1#16) ∧
      port1 (std 0#16) (.alu 0b100#3 100#16 7#16) = some (0x005D#16, 1#16) ∧
      port1 (std 0#16) (.alu 0b111#3 100#16 7#16) = some (0x02BC#16, 1#16) ∧
      port1 (std 0#16) (.alu 0b101#3 100#16 7#16) = some (0x000E#16, 1#16) := by decide

/-- 95 B4 through the port; the ALU port's output stays. -/
theorem test_unary_port :
    port1 (std 0#16) (.un 0#2 0xFFFF#16) = some (0#16, 0x0000#16) ∧
      port1 (std 0#16) (.un 1#2 0x0000#16) = some (0#16, 0xFFFF#16) ∧
      port1 (std 0#16) (.un 2#2 0x8001#16) = some (0#16, 0x0002#16) ∧
      port1 (std 0#16) (.un 3#2 0x8001#16) = some (0#16, 0x4000#16) := by decide

/-! ### Assembler text (30 R80, R81, 92 D23) -/

theorem test_assemble :
    assemble ["MOV(0, 0x000A) ; first".toList, "".toList, "ADD(0,1)".toList, "JZ()".toList, "MFENCE".toList] =
      some [0x0100000A#32, 0x07010000#32, 0x03000000#32, 0x10000000#32] := by decide

theorem test_assemble_refuses :
    asmLine "PUSH(8)".toList = none ∧ asmLine "MOV(0,65536)".toList = none ∧ asmLine "CALL(1)".toList = none ∧
      asmLine "ADD(1)".toList = none := by decide

/-! ### Witnesses: for each obligation with hypotheses, values that meet them all, clause by clause at its boundaries -/

/-- `std` with this word presented. -/
def at1 (sp : Word) (w : InstrWord) : State := (std sp).load (.word w)

theorem test_at1_presents (sp : Word) (w : InstrWord) : (at1 sp w).Presents w := ⟨rfl, rfl, rfl⟩

/-- A core of 65535 cells whose last cell is listed. -/
def wide : State := { std 0#16 with memWords := 65535, mem := [(65534, 7#16)] }

/-- A faulted core, its fault a reserved opcode. -/
def dead (uses : List PortUse) : State :=
  { std 0#16 with fault := true, cause := 1#8, finstr := 0x11000000#32, portUses := uses }

/-- A state with a script of three safe words. -/
def safe3 : State := { std 4#16 with script := [0x06200000#32, 0x02000004#32, 0x05100000#32] }

theorem test_witness_EncodeAndDecodeAreInverse :
    (Instr.mov 7#4 0xFFFF#16).wellFormed = true ∧ (Instr.aluMul 1#16 2#16 true true).wellFormed = true ∧
      decodeEncoded (.word 0x05700000#32) = .ok (.push 7#4) ∧
      decodeEncoded (.port (.un 3#2 0#16)) = .ok (.shr 0#16) := by decide

theorem test_witness_DecodeFollowsTheFourChecks :
    opField 0x00FFFFFF#32 = 0x00#8 ∧ 0x10 < (opField 0x11000000#32).toNat ∧
      opField 0x03000001#32 = 0x03#8 ∧ opField 0x10000000#32 = 0x10#8 ∧ opField 0x02010000#32 = 0x02#8 ∧
      opField 0x05700000#32 = 0x05#8 ∧ opField 0x06800000#32 = 0x06#8 ∧ opField 0x07780000#32 = 0x07#8 ∧
      opField 0x0A770000#32 = 0x0A#8 ∧ opField 0x0180000A#32 = 0x01#8 := by decide

theorem test_witness_NoWordMatchesTwoTableRows :
    ⟨"MOV", 0x01000000#32, 0xFF0F0000#32⟩ ∈ coreRows ∧
      rowMatches ⟨"MOV", 0x01000000#32, 0xFF0F0000#32⟩ 0x01F0FFFF#32 = true := by decide

theorem test_witness_ResetPutsEveryFieldAtItsValue :
    memContents (std 3#16).memWords (std 3#16).mem = true ∧ memContents (std 3#16).memWords [] = true := by decide

theorem test_witness_ConstructedCoresMeetTheInvariant :
    1 ≤ 1 ∧ 1 ≤ 65535 ∧ memContents 1 [(0, 5#16)] = true ∧ 65535 ≤ 65535 ∧
      memContents 65535 [(65534, 5#16)] = true := by decide

theorem test_witness_HostMovesKeepTheInvariant :
    (std 4#16).Inv ∧ (dead []).Inv ∧ (hostMove (.presetSp 0xFFFF#16) (std 4#16)).isSome = true ∧
      (hostMove (.presetReg 7 1#16) (std 4#16)).isSome = true ∧
      (hostMove (.presetMem 3 1#16) (std 4#16)).isSome = true ∧
      (hostMove (.presetMem 4 1#16) (std 4#16)).isSome = false ∧
      (hostMove (.present [0x11000000#32]) (std 4#16)).isSome = true ∧
      (hostMove (.usePort (.un 0#2 1#16)) (dead [])).isSome = true ∧
      (hostMove (.answerLock [false] true) (std 4#16)).isSome = true ∧
      (hostMove (.reset (Vector.replicate 8 9#16) [(3, 1#16)]) (dead [])).isSome = true := by decide

/-- Each of the clauses: any move, any but reset, any but reset and the preset of the flags. -/
theorem test_witness_HostMovesLeaveTheFaultRecordAndCapacity :
    (hostMove (.reset (Vector.replicate 8 9#16) []) (dead [])).isSome = true ∧
      (hostMove (.presetFlags true true) (dead [])).isSome = true ∧
      (HostMove.presetFlags true true ≠ .reset (Vector.replicate 8 9#16) []) ∧
      (hostMove (.presetSp 0#16) (dead [])).isSome = true ∧ (HostMove.presetSp 0#16 ≠ .presetFlags true true) := by
  decide

/-- The bits where the ranges of the two shifts end. -/
theorem test_witness_UnaryFunctionsCompute :
    (shlWord 1#16).getLsbD 1 = true ∧ (shlWord 0x4000#16).getLsbD 15 = true ∧ (shrWord 2#16).getLsbD 0 = true ∧
      (shrWord 0x8000#16).getLsbD 14 = true := by decide

/-- Every opcode's statement: a word of it with an unused field that is not zero. -/
theorem test_witness_FaultsOfShape_unused_field :
    ([(0x01010000#32, 0x01#8), (0x02100000#32, 0x02#8), (0x03000001#32, 0x03#8), (0x04010000#32, 0x04#8),
      (0x05010000#32, 0x05#8), (0x06200001#32, 0x06#8), (0x07010001#32, 0x07#8), (0x08018000#32, 0x08#8)] ++
     [(0x09000001#32, 0x09#8), (0x0A010004#32, 0x0A#8), (0x0B100000#32, 0x0B#8), (0x0C100000#32, 0x0C#8),
      (0x0D010000#32, 0x0D#8), (0x0E000001#32, 0x0E#8), (0x0F800000#32, 0x0F#8), (0x10000100#32, 0x10#8)]).all (fun p =>
      opField p.1 == p.2 && decide (decode p.1 = .error .illegalInstruction)) = true := by decide

/-- The opcodes with register operands: unused fields zero, a used register field 8 or 15. -/
theorem test_witness_FaultsOfShape_register_field :
    [(0x0180FFFF#32, 0x01#8), (0x05F00000#32, 0x05#8), (0x06800000#32, 0x06#8), (0x07780000#32, 0x07#8),
      (0x08870000#32, 0x08#8), (0x090F0000#32, 0x09#8), (0x0A800000#32, 0x0A#8)].all (fun p =>
      opField p.1 == p.2 && decide (decode p.1 = .error .invalidRegisterIndex)) = true := by decide

/-- Room for one more, full, and above the memory. -/
theorem test_witness_PushStoresAtSpOrDoesNothing :
    (std 3#16).CapacityOk ∧ Memory.wf (std 3#16).mem = true ∧ (std 3#16).sp.toNat < (std 3#16).memWords ∧
      (std 4#16).CapacityOk ∧ Memory.wf (std 4#16).mem = true ∧ ¬ (std 4#16).sp.toNat < (std 4#16).memWords ∧
      ¬ (std 5#16).sp.toNat < (std 5#16).memWords := by decide

/-- Empty, one Word, full, and above the memory. -/
theorem test_witness_PopLoadsOrDoesNothingOrFaults :
    (std 0#16).sp = 0#16 ∧ (std 1#16).sp ≠ 0#16 ∧ (std 1#16).sp.toNat ≤ (std 1#16).memWords ∧
      (std 4#16).sp.toNat ≤ (std 4#16).memWords ∧ ¬ (std 5#16).sp.toNat ≤ (std 5#16).memWords := by decide

theorem test_witness_LockCompletesWhenGrantedElseHolds :
    ([true].head?.getD (std 0#16).lockGntRest = true) ∧ ([].head?.getD (std 0#16).lockGntRest = true) ∧
      ([false].head?.getD (std 0#16).lockGntRest ≠ true) := by decide

/-- A LOCK presented, these answers coming and none after them a grant. -/
def ungranted (answers : List Bit) : State :=
  { at1 0#16 0x0B000000#32 with lockGnts := answers, lockGntRest := false }

/-- No listed answer, and two. -/
theorem test_witness_UngrantedLockIsHeldForEver :
    (ungranted []).Presents 0x0B000000#32 ∧ (∀ g ∈ (ungranted []).lockGnts, g = false) ∧
      (ungranted []).lockGntRest = false ∧ (ungranted [false, false]).Presents 0x0B000000#32 ∧
      (∀ g ∈ (ungranted [false, false]).lockGnts, g = false) ∧ (ungranted [false, false]).lockGntRest = false :=
  ⟨⟨rfl, rfl, rfl⟩, by decide, rfl, ⟨rfl, rfl, rfl⟩, by decide, rfl⟩

theorem test_witness_PushThenPopCopies :
    (std 3#16).CapacityOk ∧ Memory.wf (std 3#16).mem = true ∧ (std 3#16).sp.toNat < (std 3#16).memWords := by decide

/-- The first and the last cell, of a small memory and of the largest. -/
theorem test_witness_JmpReachesEveryCell :
    (std 0#16).CapacityOk ∧ Memory.wf (std 0#16).mem = true ∧ 0 < (std 0#16).memWords ∧ 3 < (std 0#16).memWords ∧
      wide.CapacityOk ∧ Memory.wf wide.mem = true ∧ 65534 < wide.memWords := by decide

theorem test_witness_BadRegisterOperandFaults :
    (Instr.mov 8#4 1#16).wellFormed = false ∧ (Instr.pop 15#4).wellFormed = false ∧
      (Instr.add 7#4 8#4).wellFormed = false ∧ (Instr.cmpxchg 8#4 7#4).wellFormed = false := by decide

theorem test_witness_UndecodableWordTakesItsFault :
    (at1 0#16 0x03000001#32).Presents 0x03000001#32 ∧ decode 0x03000001#32 = .error .illegalInstruction ∧
      (at1 0#16 0x07090000#32).Presents 0x07090000#32 ∧ decode 0x07090000#32 = .error .invalidRegisterIndex :=
  ⟨test_at1_presents _ _, by decide, test_at1_presents _ _, by decide⟩

/-- PUSH on a full stack, POP on an empty one and above the memory; both causes. -/
theorem test_witness_DecodeFaultsComeBeforeGuards :
    (at1 4#16 0x05800000#32).Presents 0x05800000#32 ∧ (at1 0#16 0x06900000#32).Presents 0x06900000#32 ∧
      (at1 6#16 0x06F10000#32).Presents 0x06F10000#32 ∧ opField 0x05800000#32 = 0x05#8 ∧
      opField 0x06900000#32 = 0x06#8 ∧ 8 ≤ (raField 0x05800000#32).toNat ∧ 8 ≤ (raField 0x06F10000#32).toNat :=
  ⟨test_at1_presents _ _, test_at1_presents _ _, test_at1_presents _ _, by decide⟩

/-- The three causes. -/
theorem test_witness_FaultsArePrecise :
    (∃ t, step (at1 0#16 0x11000000#32) = .next t ∧ t.fault = true ∧ t.cause = 1#8) ∧
      (∃ t, step (at1 0#16 0x05800000#32) = .next t ∧ t.fault = true ∧ t.cause = 2#8) ∧
      (∃ t, step (at1 5#16 0x06200000#32) = .next t ∧ t.fault = true ∧ t.cause = 3#8) :=
  ⟨⟨_, rfl, by decide⟩, ⟨_, rfl, by decide⟩, ⟨_, rfl, by decide⟩⟩

theorem test_witness_FaultedCoreTakesNoStep :
    (dead []).fault = true ∧ (dead []).portUses = [] ∧ (dead [.un 0#2 1#16]).fault = true ∧
      (dead [.un 0#2 1#16]).portUses ≠ [] := by decide

/-- A store, a hold and a fault. -/
theorem test_witness_EveryStepKeepsTheInvariant :
    (at1 3#16 0x05700000#32).Inv ∧ (∃ t, step (at1 3#16 0x05700000#32) = .next t ∧ t.sp = 4#16) ∧
      (at1 6#16 0x06700000#32).Inv ∧ (∃ t, step (at1 6#16 0x06700000#32) = .next t ∧ t.fault = true) :=
  ⟨by decide, ⟨_, rfl, by decide⟩, by decide, ⟨_, rfl, by decide⟩⟩

/-- A core with this fault record, a port use pending, and `sp` above the memory. -/
def deadWith (cause : BitVec 8) (w : InstrWord) : State :=
  { std 5#16 with fault := true, cause := cause, finstr := w, portUses := [.un 0#2 1#16] }

/-- Each of the four records, with a step from it. -/
theorem test_witness_EveryStepKeepsTheFaultRecordTrue :
    (at1 6#16 0x06700000#32).FaultRecordTrue ∧ (deadWith 1#8 0x11000000#32).FaultRecordTrue ∧
      (deadWith 2#8 0x05800000#32).FaultRecordTrue ∧ (deadWith 3#8 0x06200000#32).FaultRecordTrue ∧
      (∃ t, step (at1 6#16 0x06700000#32) = .next t ∧ t.fault = true) ∧
      (∃ t, step (deadWith 1#8 0x11000000#32) = .next t) ∧ (∃ t, step (deadWith 2#8 0x05800000#32) = .next t) ∧
      (∃ t, step (deadWith 3#8 0x06200000#32) = .next t) :=
  ⟨.inl (by decide), .inr (.inl (by decide)), .inr (.inr (.inl (by decide))),
    .inr (.inr (.inr ⟨rfl, rfl, by decide, 2, by decide⟩)), ⟨_, rfl, by decide⟩, ⟨_, rfl⟩, ⟨_, rfl⟩, ⟨_, rfl⟩⟩

/-- Each of the three instructions changes `sp`. -/
theorem test_witness_OnlyPushPopJmpWriteSp :
    (∃ t, step (at1 3#16 0x05700000#32) = .next t ∧ t.sp ≠ 3#16) ∧
      (∃ t, step (at1 1#16 0x06700000#32) = .next t ∧ t.sp ≠ 1#16) ∧
      (∃ t, step (at1 1#16 0x02000005#32) = .next t ∧ t.sp ≠ 1#16) :=
  ⟨⟨_, rfl, by decide⟩, ⟨_, rfl, by decide⟩, ⟨_, rfl, by decide⟩⟩

theorem test_witness_OnlyPushWritesMemory :
    Memory.wf (at1 3#16 0x05700000#32).mem = true ∧
      (∃ t, step (at1 3#16 0x05700000#32) = .next t ∧ t.mem ≠ (at1 3#16 0x05700000#32).mem) :=
  ⟨by decide, ⟨_, rfl, by decide⟩⟩

/-- Each instruction that writes a register, and both registers of XCHG. -/
theorem test_witness_OnlyTheNamedRegistersChange :
    (∃ t, step (at1 0#16 0x01700001#32) = .next t ∧ t.readReg 7 ≠ 0x7777#16) ∧
      (∃ t, step (at1 1#16 0x06700000#32) = .next t ∧ t.readReg 7 ≠ 0x7777#16) ∧
      (∃ t, step (at1 0#16 0x07700000#32) = .next t ∧ t.readReg 7 ≠ 0x7777#16) ∧
      (∃ t, step (at1 0#16 0x08700000#32) = .next t ∧ t.readReg 7 ≠ 0x7777#16) ∧
      (∃ t, step (at1 0#16 0x09700000#32) = .next t ∧ t.readReg 7 ≠ 0x7777#16 ∧ t.readReg 0 ≠ 0x1000#16) :=
  ⟨⟨_, rfl, by decide⟩, ⟨_, rfl, by decide⟩, ⟨_, rfl, by decide⟩, ⟨_, rfl, by decide⟩, ⟨_, rfl, by decide⟩⟩

/-- An instruction, a fault, the idle core, a use of a port. -/
theorem test_witness_CapacityAndScriptNeverChange :
    (∃ t, step (at1 0#16 0x0100000A#32) = .next t) ∧ (∃ t, step (at1 0#16 0x11000000#32) = .next t) ∧
      (∃ t, step (std 0#16) = .next t) ∧ (∃ t, step (dead [.un 0#2 1#16]) = .next t) :=
  ⟨⟨_, rfl⟩, ⟨_, rfl⟩, ⟨_, rfl⟩, ⟨_, rfl⟩⟩

/-- The two that read a flag, and CLI, which has the name of a flag's instruction. -/
theorem test_witness_NoStepWritesAFlag :
    (∃ t, step (at1 0#16 0x03000000#32) = .next t) ∧ (∃ t, step (at1 0#16 0x0C000000#32) = .next t) :=
  ⟨⟨_, rfl⟩, ⟨_, rfl⟩⟩

/-- A predicate, a notification, neither. -/
theorem test_witness_OutputsComeFromTheirInstructions :
    (at1 0#16 0x03000000#32).portUses = [] ∧
      (∃ t, step (at1 0#16 0x03000000#32) = .next t ∧ t.predValid = true ∧ t.noteOut = 0#3) ∧
      (∃ t, step (at1 0#16 0x10000000#32) = .next t ∧ t.predValid = false ∧ t.noteOut = 5#3) ∧
      (∃ t, step (at1 0#16 0x0100000A#32) = .next t ∧ t.predValid = false ∧ t.noteOut = 0#3) :=
  ⟨rfl, ⟨_, rfl, by decide⟩, ⟨_, rfl, by decide⟩, ⟨_, rfl, by decide⟩⟩

theorem test_witness_OutputsFeedNothing : (at1 0#16 0x03000000#32).portUses = [] := rfl

/-- A step that reports a flag, one of the many that do not (CLI), and the stop of a faulted core. -/
theorem test_witness_FlagsInfluenceOnlyTheOutput :
    (∃ t, step (at1 0#16 0x03000000#32) = .next t ∧ t.out = .pred false) ∧
      (∃ t, step (at1 0#16 0x0C000000#32) = .next t) ∧
      (¬ ∃ w, (at1 0#16 0x0C000000#32).Presents w ∧ (decode w = .ok .jz ∨ decode w = .ok .jc)) ∧
      step (dead []) = .fault .halted :=
  ⟨⟨_, rfl, by decide⟩, ⟨_, rfl⟩, fun ⟨_, hp, hd⟩ => by cases hp.2.2; revert hd; decide, rfl⟩

theorem test_witness_SafeStatesStepToSafeStates : safe3.Safe := by decide

/-- The least and the greatest number of steps. -/
theorem test_witness_SafeScriptsEndAfterTheirLength :
    safe3.Safe ∧ safe3.AlwaysGranted ∧ safe3.portUses = [] ∧ safe3.k = 0 ∧ 0 ≤ safe3.script.length ∧
      3 ≤ safe3.script.length := by decide

/-- An instruction that completes and one that is held. -/
theorem test_witness_StepRunsTheDecodedInstruction :
    (at1 0#16 0x0C000000#32).Presents 0x0C000000#32 ∧ decode 0x0C000000#32 = .ok .cli ∧
      (∃ t, exec .cli (at1 0#16 0x0C000000#32) = .next t ∧ t.instrDone = true) ∧
      (∃ t, exec .lock { at1 0#16 0x0B000000#32 with lockGntRest := false } = .next t ∧ t.instrDone = false) :=
  ⟨test_at1_presents _ _, by decide, ⟨_, rfl, by decide⟩, ⟨_, rfl, by decide⟩⟩

theorem test_witness_StepServesPendingPortUses :
    (dead [.un 0#2 1#16, .alu 7#3 1#16 1#16]).portUses = .un 0#2 1#16 :: [.alu 7#3 1#16 1#16] := rfl

theorem test_witness_CoreIdlesAtTheScriptsEnd :
    (std 0#16).portUses = [] ∧ (std 0#16).fault = false ∧ (std 0#16).script.length ≤ (std 0#16).k := by decide

theorem test_witness_SameContentsAreTheSameMemory :
    Memory.wf (std 0#16).mem = true ∧ (∀ a, Memory.read (std 0#16).mem a = Memory.read (std 1#16).mem a) :=
  ⟨by decide, fun _ => rfl⟩

end Sys2Proof.Tests
end

section
/-!
What a word that decodes is (30_encoding R76, R79), and everything a step can do, down to the effect of its instruction
(00_scope R10, R11).
-/

namespace Sys2Proof.Machine

/-! ### A word that decodes -/

/-- A word that decodes has passed the checks of R76 and gives the instruction of its fields. -/
theorem exists_opcode_of_decode {w : InstrWord} {i : Instr} (h : decode w = .ok i) :
    ∃ op, opcodeOf (opField w) = some op ∧ unusedFieldsZero (opcodeShape op) w = true ∧
      usedRegistersValid (opcodeShape op) w = true ∧ i = instrOfFields op (raField w) (rbField w) (immField w) := by
  unfold decode at h
  split at h
  · cases h
  · rename_i op hop
    split_ifs at h with hzero hregs
    exact ⟨op, hop, hzero, hregs, (Except.ok.inj h).symm⟩

theorem wellFormed_instrOfFields {op : Opcode} {w : InstrWord} (h : usedRegistersValid (opcodeShape op) w = true) :
    (instrOfFields op (raField w) (rbField w) (immField w)).wellFormed = true := by
  cases op <;>
    simp_all [usedRegistersValid, opcodeShape, shapeUsesRa, shapeUsesRb, instrOfFields, Instr.wellFormed]

/-- When the unused fields are zero, the instruction of a word's fields encodes to the word of all its fields. -/
theorem encode_instrOfFields {op : Opcode} {w : InstrWord} (h : unusedFieldsZero (opcodeShape op) w = true) :
    encode (instrOfFields op (raField w) (rbField w) (immField w)) =
      .word (packWord (opcodeNumber op) (raField w) (rbField w) (immField w)) := by
  cases op <;>
    simp_all [unusedFieldsZero, opcodeShape, shapeUsesRa, shapeUsesRb, shapeUsesImm, instrOfFields, encode, wordZ, wordI,
      wordR, wordRR, wordRI]

theorem wellFormed_of_decode {w : InstrWord} {i : Instr} (h : decode w = .ok i) : i.wellFormed = true := by
  obtain ⟨op, -, -, hregs, rfl⟩ := exists_opcode_of_decode h
  exact wellFormed_instrOfFields hregs

theorem encode_of_decode {w : InstrWord} {i : Instr} (h : decode w = .ok i) : encode i = .word w := by
  obtain ⟨op, hop, hzero, -, rfl⟩ := exists_opcode_of_decode h
  rw [encode_instrOfFields hzero, opcodeNumber_of_opcodeOf hop, packWord_fields]

/-! ### Everything a step can do -/

/-- The sequencer presents a word only before its script's end. -/
theorem State.k_lt_of_presented {s : State} {w : InstrWord} (h : s.presented = some w) : s.k < s.script.length :=
  (List.getElem?_eq_some_iff.mp h).1

/-- `StepEffect s t`: a step may take `s` to `t`. -/
inductive StepEffect (s : State) : State → Prop
  | alu (mode : BitVec 3) (a b : Word) (rest : List PortUse) (pending : s.portUses = .alu mode a b :: rest) :
      StepEffect s ({ s with portUses := rest }.driveAlu mode a b)
  | un (fn : BitVec 2) (a : Word) (rest : List PortUse) (pending : s.portUses = .un fn a :: rest) :
      StepEffect s ({ s with portUses := rest }.driveUn fn a)
  | idle (free : s.portUses = []) (running : s.fault = false) (ended : s.presented = none) : StepEffect s s.idleStep
  | badWord (w : InstrWord) (f : DecodeFault) (presents : s.Presents w) (bad : decode w = .error f) :
      StepEffect s (s.raise (decodeFaultCause f) w).advance
  | run (w : InstrWord) (i : Instr) (u : State) (presents : s.Presents w) (decodes : decode w = .ok i)
      (effect : CoreEffect s i u) : StepEffect s u.advance

theorem stepEffect_of_step {s t : State} (h : step s = .next t) : StepEffect s t := by
  obtain ⟨u, rest, hp, he⟩ | ⟨hp, hf, ⟨hw, rfl⟩ | ⟨w, f, hw, hd, rfl⟩ | ⟨w, i, u, hw, hd, he, rfl⟩⟩ := step_cases h
  · obtain ⟨mode, a, b, rfl, rfl⟩ | ⟨fn, a, rfl, rfl⟩ := exec_port_cases he
    · exact .alu mode a b rest hp
    · exact .un fn a rest hp
  · exact .idle hp hf hw
  · exact .badWord w f ⟨hp, hf, hw⟩ hd
  · exact .run w i u ⟨hp, hf, hw⟩ hd (effect_of_exec (wellFormed_of_decode hd) (encode_of_decode hd) he)

end Sys2Proof.Machine
end

section
/-!
The invariant of Sys2Proof/Safety.lean: one rule for each operation on the state, then for an instruction and for a step
(O37); the capacity and the script, which no step changes (O43); and that construction establishes the invariant (O8).
-/

namespace Sys2Proof.Machine

/-! ### The invariant, operation by operation -/

section
variable {s : State}

theorem State.Inv.writeReg (h : s.Inv) (i : Fin 8) (v : Word) : (s.writeReg i v).Inv := h

theorem State.Inv.writeSp (h : s.Inv) (v : Word) : (s.writeSp v).Inv := h

theorem State.Inv.writeMem (h : s.Inv) {a : Nat} (ha : a < s.memWords) (v : Word) : (s.writeMem a v).Inv := by
  obtain ⟨hcap, ⟨hwf, hwithin⟩, hrest⟩ := h
  exact ⟨hcap, ⟨Memory.wf_write _ _ _ hwf, Memory.within_write _ _ _ ha hwithin⟩, hrest⟩

theorem State.Inv.takeLockAnswer (h : s.Inv) : s.takeLockAnswer.Inv := h

/-- Completing a step with an output that is no notification of code 6 or 7. -/
theorem State.Inv.complete (h : s.Inv) {o : Out} (ho : ∀ c, o = .note c → c.toNat ≤ 5) : (s.complete o).Inv := by
  obtain ⟨hcap, hmem, hrec, -, -, hk⟩ := h
  refine ⟨hcap, hmem, hrec, ?_, nofun, hk⟩
  cases o with
  | none => exact Nat.zero_le 5
  | pred b => exact Nat.zero_le 5
  | note c => exact ho c rfl

theorem State.Inv.completeNote (h : s.Inv) {c : BitVec 3} (hc : c.toNat ≤ 5) : (s.complete (.note c)).Inv :=
  h.complete fun _ e => by cases e; exact hc

theorem State.Inv.hold (h : s.Inv) (hf : s.fault = false) : s.hold.Inv := by
  obtain ⟨hcap, hmem, hrec, -, -, hk⟩ := h
  exact ⟨hcap, hmem, hrec, Nat.zero_le 5, fun _ => ⟨rfl, hf⟩, hk⟩

theorem State.Inv.idleStep (h : s.Inv) : s.idleStep.Inv := by
  obtain ⟨hcap, hmem, hrec, -, -, hk⟩ := h
  exact ⟨hcap, hmem, hrec, Nat.zero_le 5, nofun, hk⟩

theorem State.Inv.raise (h : s.Inv) (f : FaultCause) (w : InstrWord) : (s.raise f w).Inv := by
  obtain ⟨hcap, hmem, -, -, -, hk⟩ := h
  have hcause : causeCode f = 1#8 ∨ causeCode f = 2#8 ∨ causeCode f = 3#8 := by cases f <;> decide
  exact ⟨hcap, hmem, ⟨nofun, fun _ => hcause⟩, Nat.zero_le 5, nofun, hk⟩

/-- The sequencer goes on from a word it has presented to the end of the script at most. -/
theorem State.Inv.advance (h : s.Inv) (hk : s.k < s.script.length) : s.advance.Inv := by
  unfold State.advance
  split
  · obtain ⟨hcap, hmem, hrec, hnote, hlock, -⟩ := h
    exact ⟨hcap, hmem, hrec, hnote, hlock, hk⟩
  · exact h

/-- Reset establishes the invariant. -/
theorem State.CapacityOk.inv_applyReset (h : s.CapacityOk) (regs : Vector Word Config.nregs) (mem : Memory)
    (hmem : memContents s.memWords mem = true) : (s.applyReset regs mem).Inv :=
  ⟨h, Bool.and_eq_true_iff.mp hmem, ⟨fun _ => ⟨rfl, rfl⟩, nofun⟩, Nat.zero_le 5, nofun, Nat.zero_le _⟩

theorem State.faultRecordTrue_applyReset (regs : Vector Word Config.nregs) (mem : Memory) :
    (s.applyReset regs mem).FaultRecordTrue :=
  .inl ⟨rfl, rfl, rfl⟩

end

/-! ### The invariant and the frame of an instruction -/

/-- A core instruction executed while FAULT is 0 keeps the invariant. -/
theorem CoreEffect.inv {s u : State} {i : Instr} (e : CoreEffect s i u) (h : s.Inv) (hf : s.fault = false) : u.Inv := by
  cases e with
  | mov r v => exact (h.writeReg r v).complete nofun
  | jmp a => exact (h.writeSp a).complete nofun
  | jz => exact h.complete nofun
  | jc => exact h.complete nofun
  | push r room => exact ((h.writeMem room _).writeSp _).complete nofun
  | pushFull r full => exact h.complete nofun
  | pop r some inside => exact ((h.writeSp _).writeReg r _).complete nofun
  | popOutside r some outside => exact h.raise _ _
  | popEmpty r empty => exact h.complete nofun
  | add r q => exact (h.writeReg r _).complete nofun
  | sub r q => exact (h.writeReg r _).complete nofun
  | xchg r q => exact ((h.writeReg r _).writeReg q _).complete nofun
  | cmpxchg r q => exact h.complete nofun
  | lockGranted granted => exact h.takeLockAnswer.complete nofun
  | lockHeld held => exact h.takeLockAnswer.hold hf
  | cli => exact h.completeNote (by decide)
  | sti => exact h.completeNote (by decide)
  | sfence => exact h.completeNote (by decide)
  | lfence => exact h.completeNote (by decide)
  | mfence => exact h.completeNote (by decide)

theorem CoreEffect.sameEnvironment {s u : State} {i : Instr} (e : CoreEffect s i u) : SameEnvironment s u := by
  cases e <;> exact ⟨rfl, rfl, rfl⟩

theorem CoreEffect.k_eq {s u : State} {i : Instr} (e : CoreEffect s i u) : u.k = s.k := by
  cases e <;> rfl

/-! ### The invariant and the frame of a step -/

theorem StepEffect.inv {s t : State} (e : StepEffect s t) (h : s.Inv) : t.Inv := by
  cases e with
  | alu => exact h
  | un => exact h
  | idle => exact h.idleStep
  | badWord w f presents =>
    obtain ⟨-, -, hw⟩ := presents
    exact (h.raise _ w).advance (State.k_lt_of_presented hw)
  | run w i u presents decodes effect =>
    obtain ⟨-, hf, hw⟩ := presents
    obtain ⟨-, hscript, -⟩ := effect.sameEnvironment
    have hk : u.k < u.script.length := by
      rw [effect.k_eq, hscript]
      exact State.k_lt_of_presented hw
    exact (effect.inv h hf).advance hk

theorem State.sameEnvironment_advance (s : State) : SameEnvironment s s.advance := by
  simp [SameEnvironment]

theorem State.advance_k_cases (s : State) : s.advance.k = s.k ∨ s.advance.k = s.k + 1 := by
  rw [State.advance_k]
  split
  · exact .inr rfl
  · exact .inl rfl

theorem StepEffect.sameEnvironment {s t : State} (e : StepEffect s t) : SameEnvironment s t := by
  cases e with
  | alu => exact ⟨rfl, rfl, rfl⟩
  | un => exact ⟨rfl, rfl, rfl⟩
  | idle => exact ⟨rfl, rfl, rfl⟩
  | badWord w f => exact (s.raise _ w).sameEnvironment_advance
  | run w i u presents decodes effect =>
    obtain ⟨hwords, hscript, hrest⟩ := effect.sameEnvironment
    obtain ⟨hwords', hscript', hrest'⟩ := u.sameEnvironment_advance
    exact ⟨hwords'.trans hwords, hscript'.trans hscript, hrest'.trans hrest⟩

/-- The sequencer skips no word and goes back to none. -/
theorem StepEffect.k_cases {s t : State} (e : StepEffect s t) : t.k = s.k ∨ t.k = s.k + 1 := by
  cases e with
  | alu => exact .inl rfl
  | un => exact .inl rfl
  | idle => exact .inl rfl
  | badWord w f => exact (s.raise _ w).advance_k_cases
  | run w i u presents decodes effect => exact effect.k_eq ▸ u.advance_k_cases

/-! ### The obligations -/

/-- Settles O37: every step is one of `StepEffect`, each of which keeps the invariant. -/
theorem everyStepKeepsTheInvariant : Obligations.EveryStepKeepsTheInvariant :=
  fun _ _ hinv hstep => (stepEffect_of_step hstep).inv hinv

/-- Settles O43: by the frame of `StepEffect`. -/
theorem capacityAndScriptNeverChange : Obligations.CapacityAndScriptNeverChange := by
  intro s t hstep
  have effect := stepEffect_of_step hstep
  obtain ⟨hwords, hscript, -⟩ := effect.sameEnvironment
  exact ⟨hwords, hscript, effect.k_cases⟩

/-- Settles O8: construction is a reset of a core of that capacity, and `State.reset` is what a reset leaves of it. -/
theorem constructedCoresMeetTheInvariant : Obligations.ConstructedCoresMeetTheInvariant := by
  refine ⟨fun words regs mem hpos hmax hmem => ?_, ?_, ?_⟩
  · have hcap : State.CapacityOk { State.reset with memWords := words } := ⟨hpos, hmax⟩
    exact ⟨_, if_pos ⟨hpos, hmax, hmem⟩, rfl, rfl, rfl, hcap.inv_applyReset regs mem hmem,
      State.faultRecordTrue_applyReset regs mem⟩
  · have hcap : State.reset.CapacityOk := by decide
    exact hcap.inv_applyReset Config.resetRegs [] (by decide)
  · exact State.reset.faultRecordTrue_applyReset Config.resetRegs []

end Sys2Proof.Machine
end

section
/-!
The converse of `stepEffect_of_step`: `step` answers every state of `StepEffect` (00_scope R10, R11), so that what a step
does from one state can be carried over to a step from another; and when the model stops (60_exceptions R209).
-/

namespace Sys2Proof.Machine

theorem exec_of_effect {s t : State} {i : Instr} (e : CoreEffect s i t) : exec i s = .next t := by
  cases e with
  | mov r v => simp only [exec, execMov, withReg_regField]
  | jmp a => rfl
  | jz => rfl
  | jc => rfl
  | push r room => simp only [exec, execPush, withReg_regField, if_pos room]
  | pushFull r full => simp only [exec, execPush, withReg_regField, if_neg (Nat.not_lt.mpr full)]
  | pop r some inside =>
    have hread : ¬ s.memWords ≤ s.sp.toNat - 1 := by omega
    simp only [exec, execPop, withReg_regField, if_pos some, if_neg hread]
  | popOutside r some outside =>
    have hread : s.memWords ≤ s.sp.toNat - 1 := by omega
    simp only [exec, execPop, withReg_regField, if_pos some, if_pos hread]
  | popEmpty r empty => simp only [exec, execPop, withReg_regField, empty, lt_irrefl, if_false]
  | add r q => simp only [exec, execAdd, withRegs_regField]
  | sub r q => simp only [exec, execSub, withRegs_regField]
  | xchg r q => simp only [exec, execXchg, withRegs_regField]
  | cmpxchg r q =>
    simp only [exec, execCmpxchg, withRegs_regField]
    split
    · rename_i heq
      rw [← heq, State.writeReg_readReg_self]
    · rfl
  | lockGranted granted => simp only [exec, execLock, if_pos granted]
  | lockHeld held => simp only [exec, execLock, held, Bool.false_eq_true, if_false]
  | cli => rfl
  | sti => rfl
  | sfence => rfl
  | lfence => rfl
  | mfence => rfl

theorem exec_aluPort (mode : BitVec 3) (a b : Word) (s : State) :
    exec (decodePortUse (.alu mode a b)) s = .next (s.driveAlu mode a b) := by
  obtain ⟨t, ht⟩ := exec_port_total (.alu mode a b) s
  obtain ⟨_, _, _, hu, rfl⟩ | ⟨_, _, hu, -⟩ := exec_port_cases ht
  · cases hu
    exact ht
  · cases hu

theorem exec_unPort (fn : BitVec 2) (a : Word) (s : State) :
    exec (decodePortUse (.un fn a)) s = .next (s.driveUn fn a) := by
  obtain ⟨t, ht⟩ := exec_port_total (.un fn a) s
  obtain ⟨_, _, _, hu, -⟩ | ⟨_, _, hu, rfl⟩ := exec_port_cases ht
  · cases hu
  · cases hu
    exact ht

theorem step_of_stepEffect {s t : State} (e : StepEffect s t) : step s = .next t := by
  cases e with
  | alu mode a b rest pending =>
    simp only [step, nextEvent_port pending]
    exact exec_aluPort mode a b _
  | un fn a rest pending =>
    simp only [step, nextEvent_port pending]
    exact exec_unPort fn a _
  | idle free running ended => simp only [step, nextEvent_core free running, ended]
  | badWord w f presents bad =>
    obtain ⟨hp, hf, hw⟩ := presents
    simp only [step, nextEvent_core hp hf, hw, bad]
  | run w i u presents decodes effect =>
    obtain ⟨hp, hf, hw⟩ := presents
    simp only [step, nextEvent_core hp hf, hw, decodes, exec_of_effect effect, advanceOutcome]

/-- Unless the core is faulted with no port use pending, there is a step. -/
theorem exists_stepEffect {s : State} (h : s.portUses = [] → s.fault = false) : ∃ t, StepEffect s t := by
  cases hp : s.portUses with
  | cons u rest =>
    cases u with
    | alu mode a b => exact ⟨_, .alu mode a b rest hp⟩
    | un fn a => exact ⟨_, .un fn a rest hp⟩
  | nil =>
    have hf := h hp
    cases hw : s.presented with
    | none => exact ⟨_, .idle hp hf hw⟩
    | some w =>
      cases hd : decode w with
      | error f => exact ⟨_, .badWord w f ⟨hp, hf, hw⟩ hd⟩
      | ok i =>
        obtain ⟨u, -, effect⟩ := exec_core (wellFormed_of_decode hd) (encode_of_decode hd) s
        exact ⟨_, .run w i u ⟨hp, hf, hw⟩ hd effect⟩

theorem step_halted {s : State} (hp : s.portUses = []) (hf : s.fault = true) : step s = .fault .halted := by
  simp [step, State.nextEvent, hp, hf]

/-- The model stops only in a faulted core with no port use pending. -/
theorem halted_of_step_fault {s : State} {f : Fault} (h : step s = .fault f) :
    s.portUses = [] ∧ s.fault = true := by
  by_contra hrunning
  obtain ⟨t, effect⟩ := exists_stepEffect (s := s) fun hp =>
    Bool.eq_false_of_not_eq_true fun hf => hrunning ⟨hp, hf⟩
  rw [step_of_stepEffect effect] at h
  cases h

end Sys2Proof.Machine
end

section
/-!
Who writes what (10_state R22, R25, R29): a step leaves the core's own state alone unless it runs an instruction, and an
instruction writes no flag (O39), the stack pointer only as PUSH, POP or JMP (O40), a register only as one of the five
that name it (O42).
-/

namespace Sys2Proof.Machine

/-- Serving a port, idling and the fault of a word leave the core's own state alone; any other step is an instruction's. -/
theorem StepEffect.sameCore_or_run {s t : State} (e : StepEffect s t) :
    SameCore s t ∨ ∃ w i u, s.Presents w ∧ decode w = .ok i ∧ CoreEffect s i u ∧ t = u.advance := by
  cases e with
  | alu => exact .inl ⟨rfl, rfl, rfl, rfl, rfl⟩
  | un => exact .inl ⟨rfl, rfl, rfl, rfl, rfl⟩
  | idle => exact .inl ⟨rfl, rfl, rfl, rfl, rfl⟩
  | badWord => exact .inl ⟨rfl, rfl, rfl, rfl, rfl⟩
  | run w i u presents decodes effect => exact .inr ⟨w, i, u, presents, decodes, effect, rfl⟩

theorem CoreEffect.sameFlags {s u : State} {i : Instr} (e : CoreEffect s i u) : SameFlags s u := by
  cases e <;> exact ⟨rfl, rfl⟩

/-- An instruction that changes `sp` is a PUSH with room, a POP with `sp > 0` or a JMP. -/
theorem CoreEffect.sp_changed {s u : State} {i : Instr} (e : CoreEffect s i u) (h : u.sp ≠ s.sp) :
    (∃ r, i = .push r ∧ s.sp.toNat < s.memWords ∧ u.sp = s.sp + 1#16) ∨
      (∃ r, i = .pop r ∧ 0 < s.sp.toNat ∧ u.sp = s.sp - 1#16) ∨ (∃ a, i = .jmp a ∧ u.sp = a) := by
  cases e with
  | push r room => exact .inl ⟨_, rfl, room, rfl⟩
  | pop r some inside => exact .inr (.inl ⟨_, rfl, some, rfl⟩)
  | jmp a => exact .inr (.inr ⟨a, rfl, rfl⟩)
  | _ => exact absurd rfl h

theorem State.eq_of_writeReg_changed {s : State} {r j : Fin 8} {v : Word}
    (h : (s.writeReg r v).readReg j ≠ s.readReg j) : r = j :=
  by_contra fun hne => h (s.writeReg_readReg_other r j v (Ne.symm hne))

/-- Of two registers written, one is the register that changed. -/
theorem State.eq_or_eq_of_writeReg_writeReg_changed {s : State} {r q j : Fin 8} {v v' : Word}
    (h : ((s.writeReg r v).writeReg q v').readReg j ≠ s.readReg j) : r = j ∨ q = j := by
  by_cases hq : q = j
  · exact .inr hq
  · rw [State.writeReg_readReg_other _ _ _ _ (Ne.symm hq)] at h
    exact .inl (State.eq_of_writeReg_changed h)

/-- An instruction that changes `x[j]` is one of the five of R22 and names `j` as an operand it writes. -/
theorem CoreEffect.readReg_changed {s u : State} {i : Instr} {j : Fin 8} (e : CoreEffect s i u)
    (h : u.readReg j ≠ s.readReg j) :
    (∃ v, i = .mov (regField j) v) ∨ i = .pop (regField j) ∨ (∃ q, i = .add (regField j) q) ∨
      (∃ q, i = .sub (regField j) q) ∨ (∃ q, i = .xchg (regField j) q) ∨ (∃ q, i = .xchg q (regField j)) := by
  cases e with
  | mov r v =>
    obtain rfl : r = j := State.eq_of_writeReg_changed h
    exact .inl ⟨v, rfl⟩
  | pop r some inside =>
    obtain rfl : r = j := State.eq_of_writeReg_changed (s := s.writeSp _) h
    exact .inr (.inl rfl)
  | add r q =>
    obtain rfl : r = j := State.eq_of_writeReg_changed h
    exact .inr (.inr (.inl ⟨_, rfl⟩))
  | sub r q =>
    obtain rfl : r = j := State.eq_of_writeReg_changed h
    exact .inr (.inr (.inr (.inl ⟨_, rfl⟩)))
  | xchg r q =>
    obtain rfl | rfl : r = j ∨ q = j := State.eq_or_eq_of_writeReg_writeReg_changed h
    · exact .inr (.inr (.inr (.inr (.inl ⟨_, rfl⟩))))
    · exact .inr (.inr (.inr (.inr (.inr ⟨_, rfl⟩))))
  | _ => exact absurd rfl h

/-! ### The obligations -/

/-- Settles O39: outside an instruction the core's state stays, and no instruction writes a flag. -/
theorem noStepWritesAFlag : Obligations.NoStepWritesAFlag := by
  intro s t hstep
  obtain ⟨-, -, hzf, hcf, -⟩ | ⟨w, i, u, -, -, effect, rfl⟩ := (stepEffect_of_step hstep).sameCore_or_run
  · exact ⟨hzf, hcf⟩
  · obtain ⟨hzf, hcf⟩ := effect.sameFlags
    exact ⟨u.advance_zf.trans hzf, u.advance_cf.trans hcf⟩

/-- Settles O40: a step that changes `sp` runs an instruction that changes it. -/
theorem onlyPushPopJmpWriteSp : Obligations.OnlyPushPopJmpWriteSp := by
  intro s t hstep hchanged
  obtain ⟨-, hsp, -⟩ | ⟨w, i, u, presents, decodes, effect, rfl⟩ := (stepEffect_of_step hstep).sameCore_or_run
  · exact absurd hsp hchanged
  · rw [State.advance_sp] at hchanged ⊢
    refine ⟨w, presents, ?_⟩
    simp only [decodes, Except.ok.injEq]
    exact effect.sp_changed hchanged

/-- Settles O42: a step that changes `x[j]` runs an instruction that changes it. -/
theorem onlyTheNamedRegistersChange : Obligations.OnlyTheNamedRegistersChange := by
  intro s t j hstep hchanged
  obtain ⟨hx, -⟩ | ⟨w, i, u, presents, decodes, effect, rfl⟩ := (stepEffect_of_step hstep).sameCore_or_run
  · exact absurd (State.readReg_congr hx j) hchanged
  · rw [State.readReg_congr u.advance_x] at hchanged
    refine ⟨w, presents, ?_⟩
    simp only [decodes, Except.ok.injEq]
    exact effect.readReg_changed hchanged

end Sys2Proof.Machine
end

section
/-!
What a step sends (10_state R34): the output of an instruction is a function of the instruction and the flags. From it,
which steps send a predicate or a notification (O44), and that the flags reach nothing but that output (O46).
-/

namespace Sys2Proof.Machine

/-- What a core instruction sends when the flags are `z` and `c` (43 R149, 47 R190). -/
def sentBy (z c : Bit) : Instr → Out
  | .jz => .pred z
  | .jc => .pred c
  | .cli => .note noteCli
  | .sti => .note noteSti
  | .sfence => .note noteSfence
  | .lfence => .note noteLfence
  | .mfence => .note noteMfence
  | _ => .none

theorem CoreEffect.out_eq {s u : State} {i : Instr} (e : CoreEffect s i u) : u.out = sentBy s.zf s.cf i := by
  cases e <;> rfl

/-- Only JZ and JC send what depends on a flag. -/
theorem sentBy_congr_flags {i : Instr} (hz : i ≠ .jz) (hc : i ≠ .jc) (z c z' c' : Bit) :
    sentBy z c i = sentBy z' c' i := by
  cases i with
  | jz => exact absurd rfl hz
  | jc => exact absurd rfl hc
  | _ => rfl

/-! ### The output of a step of the core -/

/-- The word presented in `s` decodes to `i`. -/
def State.Runs (s : State) (i : Instr) : Prop := ∃ w, s.Presents w ∧ decode w = .ok i

/-- The sequencer presents one word, which decodes to one instruction. -/
theorem State.Runs.unique {s : State} {i j : Instr} (hi : s.Runs i) (hj : s.Runs j) : i = j := by
  obtain ⟨w, ⟨-, -, hw⟩, hi⟩ := hi
  obtain ⟨v, ⟨-, -, hv⟩, hj⟩ := hj
  obtain rfl : w = v := Option.some.inj (hw.symm.trans hv)
  exact Except.ok.inj (hi.symm.trans hj)

/-- A step of the core runs an instruction and sends what it sends, or runs none and sends nothing. -/
theorem StepEffect.out_cases {s t : State} (e : StepEffect s t) (hp : s.portUses = []) :
    (∃ i, s.Runs i ∧ t.out = sentBy s.zf s.cf i) ∨ ((∀ i, ¬ s.Runs i) ∧ t.out = .none) := by
  cases e with
  | alu mode a b rest pending => cases hp.symm.trans pending
  | un fn a rest pending => cases hp.symm.trans pending
  | idle free running ended =>
    refine .inr ⟨?_, rfl⟩
    rintro i ⟨w, ⟨-, -, hw⟩, -⟩
    cases ended.symm.trans hw
  | badWord w f presents bad =>
    refine .inr ⟨?_, rfl⟩
    obtain ⟨-, -, hw⟩ := presents
    rintro i ⟨v, ⟨-, -, hv⟩, hd⟩
    obtain rfl : w = v := Option.some.inj (hw.symm.trans hv)
    cases bad.symm.trans hd
  | run w i u presents decodes effect => exact .inl ⟨i, ⟨w, presents, decodes⟩, u.advance_out.trans effect.out_eq⟩

section
variable {t : State} {z c : Bit} {i : Instr} (h : t.out = sentBy z c i)
include h

theorem predValid_iff_of_sentBy : t.predValid = true ↔ i = .jz ∨ i = .jc := by
  cases i <;> simp [State.predValid, h, sentBy]

theorem noteOut_ne_zero_iff_of_sentBy :
    t.noteOut ≠ 0#3 ↔ i = .cli ∨ i = .sti ∨ i = .sfence ∨ i = .lfence ∨ i = .mfence := by
  cases i <;> simp [State.noteOut, h, sentBy, noteCli, noteSti, noteSfence, noteLfence, noteMfence]

theorem noteOut_le_of_sentBy : t.noteOut.toNat ≤ 5 := by
  cases i <;> simp [State.noteOut, h, sentBy, noteCli, noteSti, noteSfence, noteLfence, noteMfence]

end

/-! ### The same step with other flags -/

theorem State.advance_presetFlags_out (u : State) (z c : Bit) (o : Out) :
    State.advance { u.presetFlags z c with out := o } = { u.advance.presetFlags z c with out := o } := by
  cases hdone : u.instrDone <;> simp [State.advance, State.presetFlags, hdone]

/-- With other flags an instruction does the same, and sends what it sends at those flags. -/
theorem CoreEffect.presetFlags {s u : State} {i : Instr} (e : CoreEffect s i u) (z c : Bit) :
    CoreEffect (s.presetFlags z c) i { u.presetFlags z c with out := sentBy z c i } := by
  cases e with
  | mov r v => exact .mov r v
  | jmp a => exact .jmp a
  | jz => exact .jz
  | jc => exact .jc
  | push r room => exact .push r room
  | pushFull r full => exact .pushFull r full
  | pop r some inside => exact .pop r some inside
  | popOutside r some outside => exact .popOutside r some outside
  | popEmpty r empty => exact .popEmpty r empty
  | add r q => exact .add r q
  | sub r q => exact .sub r q
  | xchg r q => exact .xchg r q
  | cmpxchg r q => exact .cmpxchg r q
  | lockGranted granted => exact .lockGranted granted
  | lockHeld held => exact .lockHeld held
  | cli => exact .cli
  | sti => exact .sti
  | sfence => exact .sfence
  | lfence => exact .lfence
  | mfence => exact .mfence

/-- With other flags a step is the same, but for the output of a JZ or a JC. -/
theorem StepEffect.presetFlags {s t : State} (e : StepEffect s t) (z c : Bit) :
    ∃ o, StepEffect (s.presetFlags z c) { t.presetFlags z c with out := o } ∧
      (¬ s.Runs .jz → ¬ s.Runs .jc → o = t.out) := by
  cases e with
  | alu mode a b rest pending => exact ⟨s.out, .alu mode a b rest pending, fun _ _ => rfl⟩
  | un fn a rest pending => exact ⟨s.out, .un fn a rest pending, fun _ _ => rfl⟩
  | idle free running ended => exact ⟨.none, .idle free running ended, fun _ _ => rfl⟩
  | badWord w f presents bad => exact ⟨.none, .badWord w f presents bad, fun _ _ => rfl⟩
  | run w i u presents decodes effect =>
    refine ⟨sentBy z c i, ?_, fun hjz hjc => ?_⟩
    · rw [← State.advance_presetFlags_out]
      exact .run w i _ presents decodes (effect.presetFlags z c)
    · have hz : i ≠ .jz := fun heq => hjz ⟨w, presents, heq ▸ decodes⟩
      have hc : i ≠ .jc := fun heq => hjc ⟨w, presents, heq ▸ decodes⟩
      calc sentBy z c i = sentBy s.zf s.cf i := sentBy_congr_flags hz hc z c s.zf s.cf
        _ = u.advance.out := (u.advance_out.trans effect.out_eq).symm

/-! ### The obligations -/

/-- Settles O44: a step of the core sends what the instruction it runs sends, and nothing when it runs none. -/
theorem outputsComeFromTheirInstructions : Obligations.OutputsComeFromTheirInstructions := by
  intro s t hstep hp
  simp only [and_or_left, exists_or]
  change (t.predValid = true ↔ s.Runs .jz ∨ s.Runs .jc) ∧
    (t.noteOut ≠ 0#3 ↔ s.Runs .cli ∨ s.Runs .sti ∨ s.Runs .sfence ∨ s.Runs .lfence ∨ s.Runs .mfence) ∧
    t.noteOut.toNat ≤ 5
  obtain ⟨i, hruns, hout⟩ | ⟨hnone, hout⟩ := (stepEffect_of_step hstep).out_cases hp
  · have hruns_iff (j : Instr) : s.Runs j ↔ i = j := ⟨hruns.unique, fun heq => heq ▸ hruns⟩
    simp only [hruns_iff]
    exact ⟨predValid_iff_of_sentBy hout, noteOut_ne_zero_iff_of_sentBy hout, noteOut_le_of_sentBy hout⟩
  · simp [hnone, State.predValid, State.noteOut, hout]

/-- Settles O46: the same step is taken with other flags, and a stop does not depend on them. -/
theorem flagsInfluenceOnlyTheOutput : Obligations.FlagsInfluenceOnlyTheOutput := by
  intro s z c
  refine ⟨fun t hstep => ?_, fun f hstop => ?_⟩
  · obtain ⟨o, effect, hout⟩ := (stepEffect_of_step hstep).presetFlags z c
    refine ⟨o, step_of_stepEffect effect, fun hneither => hout ?_ ?_⟩
    · exact fun ⟨w, presents, hd⟩ => hneither ⟨w, presents, .inl hd⟩
    · exact fun ⟨w, presents, hd⟩ => hneither ⟨w, presents, .inr hd⟩
  · obtain ⟨hp, hf⟩ := halted_of_step_fault hstop
    cases f
    exact step_halted hp hf

end Sys2Proof.Machine
end

section
/-!
The memory (20_memory): a step changes only the cell a PUSH with room writes (R53, O41), and the canonical form is a form:
memories that read the same are the same list (R52, O52).
-/

namespace Sys2Proof.Machine

/-! ### A cell of the state after a write -/

theorem State.writeMem_readMem_same {s : State} (hwf : Memory.wf s.mem = true) (a : Nat) (v : Word) :
    (s.writeMem a v).readMem a = v :=
  (Memory.read_write s.mem a a v hwf).trans (if_pos rfl)

theorem State.writeMem_readMem_other {s : State} (hwf : Memory.wf s.mem = true) {a b : Nat} (v : Word) (h : b ≠ a) :
    (s.writeMem a v).readMem b = s.readMem b :=
  (Memory.read_write s.mem a b v hwf).trans (if_neg h)

/-- An instruction that changes the memory is a PUSH with room, and the memory is the one with its write at `sp`. -/
theorem CoreEffect.mem_changed {s u : State} {i : Instr} (e : CoreEffect s i u) (h : u.mem ≠ s.mem) :
    ∃ r, i = .push (regField r) ∧ s.sp.toNat < s.memWords ∧ u.mem = (s.writeMem s.sp.toNat (s.readReg r)).mem := by
  cases e with
  | push r room => exact ⟨r, rfl, room, rfl⟩
  | _ => exact absurd rfl h

/-! ### Canonical memories with the same contents -/

/-- In canonical form every address that does not read as an unlisted one is at or above the bound. -/
theorem Memory.le_of_read_ne_unlisted {lo a : Nat} {m : Memory} (hm : Memory.wfAbove lo m = true)
    (h : Memory.read m a ≠ Memory.unlisted) : lo ≤ a :=
  Nat.le_of_not_lt fun hlt => h (Memory.read_below hm hlt)

theorem Memory.read_head (a : Nat) (v : Word) (m : Memory) : Memory.read ((a, v) :: m) a = v := if_pos rfl

/-- A canonical memory's tail reads like the whole but at the first cell, which it does not list. -/
theorem Memory.read_tail {lo a : Nat} {v : Word} {m : Memory} (hm : Memory.wfAbove lo ((a, v) :: m) = true) (b : Nat) :
    Memory.read m b = if b = a then Memory.unlisted else Memory.read ((a, v) :: m) b := by
  obtain ⟨-, -, htail⟩ := (Memory.wfAbove_iff _ _ _).mp hm
  split
  · subst b
    exact Memory.read_below htail (Nat.lt_succ_self a)
  · exact (if_neg ‹_›).symm

/-- The first cell of a canonical memory is not above that of another with the same contents. -/
theorem Memory.first_le_first {lo a b : Nat} {v u : Word} {m n : Memory}
    (hm : Memory.wfAbove lo ((a, v) :: m) = true) (hn : Memory.wfAbove lo ((b, u) :: n) = true)
    (h : ∀ c, Memory.read ((a, v) :: m) c = Memory.read ((b, u) :: n) c) : a ≤ b := by
  obtain ⟨-, hv⟩ := (Memory.wfAbove_iff _ _ _).mp hm
  obtain ⟨-, hu, -⟩ := (Memory.wfAbove_iff _ _ _).mp hn
  have hfrom : Memory.wfAbove a ((a, v) :: m) = true := (Memory.wfAbove_iff _ _ _).mpr ⟨le_rfl, hv⟩
  apply Memory.le_of_read_ne_unlisted hfrom
  rwa [h, Memory.read_head]

theorem Memory.eq_nil_of_read_unlisted {lo : Nat} {m : Memory} (hm : Memory.wfAbove lo m = true)
    (h : ∀ a, Memory.read m a = Memory.unlisted) : m = [] := by
  cases m with
  | nil => rfl
  | cons cell rest =>
    obtain ⟨-, hlisted, -⟩ := (Memory.wfAbove_iff _ _ _).mp hm
    exact absurd ((Memory.read_head _ _ _).symm.trans (h cell.1)) hlisted

/-- Cell by cell: the first cells agree, and so do the contents of the tails. -/
theorem Memory.eq_of_read_eq {lo : Nat} {m n : Memory} (hm : Memory.wfAbove lo m = true)
    (hn : Memory.wfAbove lo n = true) (h : ∀ a, Memory.read m a = Memory.read n a) : m = n := by
  induction m generalizing lo n with
  | nil => exact (Memory.eq_nil_of_read_unlisted hn fun a => (h a).symm).symm
  | cons cell m ih =>
    obtain ⟨a, v⟩ := cell
    cases n with
    | nil => exact Memory.eq_nil_of_read_unlisted hm h
    | cons cell n =>
      obtain ⟨b, u⟩ := cell
      obtain rfl : a = b :=
        le_antisymm (Memory.first_le_first hm hn h) (Memory.first_le_first hn hm fun c => (h c).symm)
      obtain rfl : v = u := by simpa only [Memory.read_head] using h a
      have htails (c : Nat) : Memory.read m c = Memory.read n c := by
        rw [Memory.read_tail hm, Memory.read_tail hn, h]
      obtain ⟨-, -, hm⟩ := (Memory.wfAbove_iff _ _ _).mp hm
      obtain ⟨-, -, hn⟩ := (Memory.wfAbove_iff _ _ _).mp hn
      rw [ih hm hn htails]

/-! ### The obligations -/

/-- Settles O41: a step that changes the memory runs a PUSH with room, whose one write is at the old `sp`. -/
theorem onlyPushWritesMemory : Obligations.OnlyPushWritesMemory := by
  intro s t hwf hstep hchanged
  obtain ⟨-, -, -, -, hmem⟩ | ⟨w, i, u, presents, decodes, effect, rfl⟩ := (stepEffect_of_step hstep).sameCore_or_run
  · exact absurd hmem hchanged
  · rw [State.advance_mem] at hchanged
    obtain ⟨r, rfl, room, hmem⟩ := effect.mem_changed hchanged
    have hread := State.readMem_congr (u.advance_mem.trans hmem)
    refine ⟨w, r, presents, decodes, room, ?_, fun a ha => ?_⟩
    · exact (hread _).trans (State.writeMem_readMem_same hwf _ _)
    · exact (hread a).trans (State.writeMem_readMem_other hwf _ (List.ne_of_not_mem_cons ha))

/-- Settles O52: both lists are in canonical form from address 0. -/
theorem sameContentsAreTheSameMemory : Obligations.SameContentsAreTheSameMemory :=
  fun _ _ hm hn h => Memory.eq_of_read_eq hm hn h

end Sys2Proof.Machine
end

section
/-!
The encoding (30_encoding): what a word of each shape decodes to (R72, R76, O2, O5), that decoding and encoding are
inverse for words and for uses of a port (R79, R82, R83, O1, O6), and that a step runs the instruction of the presented
word (70 R233, O49).
-/

namespace Sys2Proof.Machine

/-! ### What a word decodes to, by the shape of its opcode -/

theorem opcodeOf_reserved {n : BitVec 8} (h : n = 0x00#8 ∨ 0x10 < n.toNat) : opcodeOf n = none := by
  revert n; decide

theorem decode_reserved {w : InstrWord} (h : opcodeOf (opField w) = none) : decode w = .error .illegalInstruction := by
  simp only [decode, h]

theorem RegField.wf_iff (r : RegField) : RegField.wf r = true ↔ r.toNat ≤ 7 := by
  rw [RegField.wf, decide_eq_true_iff, Nat.lt_succ_iff]

section
variable {w : InstrWord} {op : Opcode}

/-- Checks 2 and 3 of R76 and the result, once check 1 has given the operation. -/
theorem decode_of_opcodeOf (hop : opcodeOf (opField w) = some op) :
    decode w = if unusedFieldsZero (opcodeShape op) w then
        (if usedRegistersValid (opcodeShape op) w then .ok (instrOfFields op (raField w) (rbField w) (immField w))
          else .error .invalidRegisterIndex)
      else .error .illegalInstruction := by
  simp only [decode, hop]

theorem decode_shape_z (hop : opcodeOf (opField w) = some op) (hshape : opcodeShape op = .z) :
    decode w = if raField w = 0#4 ∧ rbField w = 0#4 ∧ immField w = 0#16 then
        .ok (instrOfFields op (raField w) (rbField w) (immField w))
      else .error .illegalInstruction := by
  simp [decode_of_opcodeOf hop, hshape, unusedFieldsZero, usedRegistersValid, shapeUsesRa, shapeUsesRb, shapeUsesImm,
    and_assoc]

theorem decode_shape_i (hop : opcodeOf (opField w) = some op) (hshape : opcodeShape op = .i) :
    decode w = if raField w = 0#4 ∧ rbField w = 0#4 then
        .ok (instrOfFields op (raField w) (rbField w) (immField w))
      else .error .illegalInstruction := by
  simp [decode_of_opcodeOf hop, hshape, unusedFieldsZero, usedRegistersValid, shapeUsesRa, shapeUsesRb, shapeUsesImm]

theorem decode_shape_r (hop : opcodeOf (opField w) = some op) (hshape : opcodeShape op = .r) :
    decode w = if rbField w = 0#4 ∧ immField w = 0#16 then
        (if (raField w).toNat ≤ 7 then .ok (instrOfFields op (raField w) (rbField w) (immField w))
          else .error .invalidRegisterIndex)
      else .error .illegalInstruction := by
  simp [decode_of_opcodeOf hop, hshape, unusedFieldsZero, usedRegistersValid, shapeUsesRa, shapeUsesRb, shapeUsesImm,
    RegField.wf_iff]

theorem decode_shape_rr (hop : opcodeOf (opField w) = some op) (hshape : opcodeShape op = .rr) :
    decode w = if immField w = 0#16 then
        (if (raField w).toNat ≤ 7 ∧ (rbField w).toNat ≤ 7 then
            .ok (instrOfFields op (raField w) (rbField w) (immField w))
          else .error .invalidRegisterIndex)
      else .error .illegalInstruction := by
  simp [decode_of_opcodeOf hop, hshape, unusedFieldsZero, usedRegistersValid, shapeUsesRa, shapeUsesRb, shapeUsesImm,
    RegField.wf_iff]

theorem decode_shape_ri (hop : opcodeOf (opField w) = some op) (hshape : opcodeShape op = .ri) :
    decode w = if rbField w = 0#4 then
        (if (raField w).toNat ≤ 7 then .ok (instrOfFields op (raField w) (rbField w) (immField w))
          else .error .invalidRegisterIndex)
      else .error .illegalInstruction := by
  simp [decode_of_opcodeOf hop, hshape, unusedFieldsZero, usedRegistersValid, shapeUsesRa, shapeUsesRb, shapeUsesImm,
    RegField.wf_iff]

end

/-! ### Decoding what was encoded -/

theorem opcodeOf_opField_packWord (op : Opcode) (ra rb : RegField) (imm : Word) :
    opcodeOf (opField (packWord (opcodeNumber op) ra rb imm)) = some op := by
  simp

section
variable {op : Opcode} {ra rb : RegField} {imm : Word}

theorem decode_wordZ (hshape : opcodeShape op = .z) : decode (wordZ op) = .ok (instrOfFields op 0#4 0#4 0#16) := by
  rw [wordZ, decode_shape_z (opcodeOf_opField_packWord ..) hshape]
  simp

theorem decode_wordI (hshape : opcodeShape op = .i) :
    decode (wordI op imm) = .ok (instrOfFields op 0#4 0#4 imm) := by
  rw [wordI, decode_shape_i (opcodeOf_opField_packWord ..) hshape]
  simp

theorem decode_wordR (hshape : opcodeShape op = .r) (hra : RegField.wf ra = true) :
    decode (wordR op ra) = .ok (instrOfFields op ra 0#4 0#16) := by
  rw [wordR, decode_shape_r (opcodeOf_opField_packWord ..) hshape]
  simp [(RegField.wf_iff ra).mp hra]

theorem decode_wordRR (hshape : opcodeShape op = .rr) (hregs : (RegField.wf ra && RegField.wf rb) = true) :
    decode (wordRR op ra rb) = .ok (instrOfFields op ra rb 0#16) := by
  rw [Bool.and_eq_true, RegField.wf_iff, RegField.wf_iff] at hregs
  rw [wordRR, decode_shape_rr (opcodeOf_opField_packWord ..) hshape]
  simp [hregs]

theorem decode_wordRI (hshape : opcodeShape op = .ri) (hra : RegField.wf ra = true) :
    decode (wordRI op ra imm) = .ok (instrOfFields op ra 0#4 imm) := by
  rw [wordRI, decode_shape_ri (opcodeOf_opField_packWord ..) hshape]
  simp [(RegField.wf_iff ra).mp hra]

end

/-! ### The two ports -/

theorem decodePortUse_mul (a b : Word) (sub div : Bool) :
    decodePortUse (.alu (aluModeOf sub true div) a b) = .aluMul a b sub div := by
  simp [decodePortUse]

theorem decodePortUse_div (a b : Word) (sub : Bool) :
    decodePortUse (.alu (aluModeOf sub false true) a b) = .aluDiv a b sub := by
  simp [decodePortUse]

theorem wellFormed_decodePortUse (u : PortUse) : (decodePortUse u).wellFormed = true := by
  unfold decodePortUse
  repeat' split
  all_goals rfl

/-- The operation asked for has every flag of the mode, the overridden ones too, so that it encodes to the same use. -/
theorem encode_decodePortUse (u : PortUse) : encode (decodePortUse u) = .port u := by
  cases u with
  | alu mode a b =>
    rw [← aluModeOf_flags mode]
    cases modeSubtract mode <;> cases modeMultiply mode <;> cases modeDivide mode <;> rfl
  | un fn a =>
    have hfn : ∀ n : BitVec 2, n = 0#2 ∨ n = 1#2 ∨ n = 2#2 ∨ n = 3#2 := by decide
    obtain rfl | rfl | rfl | rfl := hfn fn <;> rfl

/-! ### Both ways -/

theorem decodeEncoded_encode {i : Instr} (h : i.wellFormed = true) : decodeEncoded (encode i) = .ok i := by
  cases i with
  | mov => exact decode_wordRI rfl h
  | jmp => exact decode_wordI rfl
  | push | pop => exact decode_wordR rfl h
  | add | sub | xchg | cmpxchg => exact decode_wordRR rfl h
  | jz | jc | lock | cli | sti | sfence | lfence | mfence =>
    rw [encode, decodeEncoded]
    exact decode_wordZ rfl
  | aluMul a b sub div => exact congrArg Except.ok (decodePortUse_mul a b sub div)
  | aluDiv a b sub => exact congrArg Except.ok (decodePortUse_div a b sub)
  | aluAdd | aluSub | inc | dec | shl | shr => rfl

theorem encode_of_decodeEncoded {e : Encoded} {i : Instr} (h : decodeEncoded e = .ok i) :
    i.wellFormed = true ∧ encode i = e := by
  cases e with
  | word w => exact ⟨wellFormed_of_decode h, encode_of_decode h⟩
  | port u =>
    obtain rfl : decodePortUse u = i := Except.ok.inj h
    exact ⟨wellFormed_decodePortUse u, encode_decodePortUse u⟩

/-! ### A step that runs an instruction -/

theorem State.advance_eq (s : State) : s.advance = { s with k := if s.instrDone then s.k + 1 else s.k } := by
  unfold State.advance
  split <;> rfl

/-- With a word presented that decodes, the step is `exec` of its instruction and the sequencer's move. -/
theorem step_of_presents {s : State} {w : InstrWord} {i : Instr} (hpresents : s.Presents w)
    (hdecode : decode w = .ok i) : step s = advanceOutcome (exec i s) := by
  obtain ⟨hports, hfault, hword⟩ := hpresents
  simp only [step, nextEvent_core hports hfault, hword, hdecode]

/-! ### The obligations -/

/-- Settles O1: word by word through the shape of the opcode, and use by use through the selector's table. -/
theorem encodeAndDecodeAreInverse : Obligations.EncodeAndDecodeAreInverse :=
  ⟨fun _ => decodeEncoded_encode, fun _ _ => encode_of_decodeEncoded⟩

/-- Settles O2: each opcode number gives its operation, whose shape says which fields the checks look at. -/
theorem decodeFollowsTheFourChecks : Obligations.DecodeFollowsTheFourChecks := by
  intro w
  refine ⟨fun h => decode_reserved (opcodeOf_reserved h), ?_, ?_, ?_, ?_, ?_⟩
  · intro p hp hop
    fin_cases hp <;> exact decode_shape_z (congrArg opcodeOf hop) rfl
  · intro hop
    exact decode_shape_i (congrArg opcodeOf hop) rfl
  · intro p hp hop
    fin_cases hp <;> exact decode_shape_r (congrArg opcodeOf hop) rfl
  · intro p hp hop
    fin_cases hp <;> exact decode_shape_rr (congrArg opcodeOf hop) rfl
  · intro hop
    exact decode_shape_ri (congrArg opcodeOf hop) rfl

/-- Settles O5: each of the words is evaluated. -/
theorem specExampleWordsDecode : Obligations.SpecExampleWordsDecode := by
  unfold Obligations.SpecExampleWordsDecode
  decide

/-- Settles O6: row by row of the two selector tables. -/
theorem portSelectorsChooseTheirOperation : Obligations.PortSelectorsChooseTheirOperation :=
  fun _ _ => ⟨rfl, rfl, rfl, rfl, rfl, rfl, rfl, rfl, rfl, rfl, rfl, rfl⟩

/-- Settles O49: the step is `exec` of the instruction, then `State.advance`. -/
theorem stepRunsTheDecodedInstruction : Obligations.StepRunsTheDecodedInstruction := by
  intro s t w i hpresents hdecode hexec
  rw [step_of_presents hpresents hdecode, hexec, ← State.advance_eq]
  rfl

end Sys2Proof.Machine
end

section
/-!
The rows of the opcode table (30_encoding R75, R76): a word matches the row of an operation exactly when it has that
operation's opcode and passes check 2 of R76, so the illegal words are those that match no row (60_exceptions R204, O3),
and no word matches two (O4).
-/

namespace Sys2Proof.Machine

/-! ### The row of an operation -/

/-- The row of spec/opcode_table.json that is the operation's. -/
def opcodeRow (op : Opcode) : TableRow := Laws.MatchesItsRow.rowOf (instrOfFields op 0#4 0#4 0#16)

theorem mem_coreRows_iff {row : TableRow} : row ∈ coreRows ↔ ∃ op, opcodeRow op = row := by
  constructor
  · intro h
    have hrows : coreRows = [Opcode.mov, .jmp, .jz, .jc, .push, .pop, .add, .sub, .xchg, .cmpxchg, .lock, .cli, .sti,
        .sfence, .lfence, .mfence].map opcodeRow := rfl
    rw [hrows, List.mem_map] at h
    obtain ⟨op, -, hrow⟩ := h
    exact ⟨op, hrow⟩
  · rintro ⟨op, rfl⟩
    cases op <;> decide

theorem opcodeRow_pattern (op : Opcode) : (opcodeRow op).pattern = packWord (opcodeNumber op) 0#4 0#4 0#16 := by
  cases op <;> rfl

/-- What a row's mask keeps of a field: nothing of one the shape uses, all of one it does not. -/
def fieldMask (n : Nat) (used : Bool) : BitVec n := if used then 0#n else BitVec.allOnes n

theorem opcodeRow_mask (op : Opcode) :
    (opcodeRow op).mask = packWord 0xFF#8 (fieldMask 4 (shapeUsesRa (opcodeShape op)))
      (fieldMask 4 (shapeUsesRb (opcodeShape op))) (fieldMask 16 (shapeUsesImm (opcodeShape op))) := by
  cases op <;> rfl

theorem and_fieldMask_eq_zero_iff {n : Nat} (v : BitVec n) (used : Bool) :
    v &&& fieldMask n used = 0#n ↔ (used || v == 0#n) = true := by
  cases used <;> simp [fieldMask]

theorem packWord_inj {op op' : BitVec 8} {ra ra' rb rb' : RegField} {imm imm' : Word} :
    packWord op ra rb imm = packWord op' ra' rb' imm' ↔ op = op' ∧ ra = ra' ∧ rb = rb' ∧ imm = imm' := by
  constructor
  · intro h
    exact ⟨by simpa using congrArg opField h, by simpa using congrArg raField h, by simpa using congrArg rbField h,
      by simpa using congrArg immField h⟩
  · rintro ⟨rfl, rfl, rfl, rfl⟩
    rfl

theorem opcodeOf_eq_some_iff {n : BitVec 8} {op : Opcode} : opcodeOf n = some op ↔ n = opcodeNumber op := by
  constructor
  · exact fun h => (opcodeNumber_of_opcodeOf h).symm
  · rintro rfl
    exact opcodeOf_opcodeNumber op

/-- The mask keeps the opcode and the fields the shape does not use; the pattern has zeros in the latter. -/
theorem rowMatches_opcodeRow_iff {op : Opcode} {w : InstrWord} :
    rowMatches (opcodeRow op) w = true ↔
      opcodeOf (opField w) = some op ∧ unusedFieldsZero (opcodeShape op) w = true := by
  have hop : opField w &&& 0xFF#8 = opField w := BitVec.and_allOnes
  rw [rowMatches, beq_iff_eq, ← packWord_fields w, opcodeRow_mask, opcodeRow_pattern, packWord_and, packWord_inj,
    packWord_fields, hop, opcodeOf_eq_some_iff]
  simp only [and_fieldMask_eq_zero_iff, unusedFieldsZero, Bool.and_eq_true, and_assoc]

/-! ### The words that match no row -/

theorem decode_eq_illegal_iff {w : InstrWord} :
    decode w = .error .illegalInstruction ↔
      ∀ op, opcodeOf (opField w) = some op → unusedFieldsZero (opcodeShape op) w = false := by
  cases hop : opcodeOf (opField w) with
  | none => simp [decode_reserved hop]
  | some op =>
    rw [decode_of_opcodeOf hop]
    split_ifs <;> simp_all

/-! ### The obligations -/

/-- Settles O3: check 1 and check 2 of R76 are that the row of some operation matches. -/
theorem illegalWordsMatchNoTableRow : Obligations.IllegalWordsMatchNoTableRow := by
  intro w
  simp only [decode_eq_illegal_iff, mem_coreRows_iff, forall_exists_index, forall_apply_eq_imp_iff,
    ← Bool.not_eq_true, rowMatches_opcodeRow_iff, not_and]

/-- Settles O4: two rows that match are both the row of the word's opcode. -/
theorem noWordMatchesTwoTableRows : Obligations.NoWordMatchesTwoTableRows := by
  intro w r q hr hq hrw hqw
  obtain ⟨op, rfl⟩ := mem_coreRows_iff.mp hr
  obtain ⟨op', rfl⟩ := mem_coreRows_iff.mp hq
  obtain ⟨hop, -⟩ := rowMatches_opcodeRow_iff.mp hrw
  obtain ⟨hop', -⟩ := rowMatches_opcodeRow_iff.mp hqw
  rw [Option.some.inj (hop.symm.trans hop')]

end Sys2Proof.Machine
end

section
/-!
The ALU and the unary functions (41_alu R120 to R137): the ripple chain adds with carry (R123 to R125, O11, O12), so that
the ALU and the unary functions are the arithmetic of 16-bit vectors (R121, R122, R126, R133 to R136, O13, O14), and what
the two shifts lose (R137, O15).
-/

namespace Sys2Proof.Machine

/-! ### The ripple chain -/

/-- The second operand as the adder cells see it: every bit XORed with `subtract` (R123). -/
def addend (b : Word) (subtract : Bit) : Word := if subtract then ~~~b else b

theorem getLsbD_addend {b : Word} {subtract : Bit} {i : Nat} (hi : i < 16) :
    (addend b subtract).getLsbD i = gateXor (b.getLsbD i) subtract := by
  cases subtract <;> simp [addend, hi]

theorem toNat_placeBit {y : Word} {i : Nat} (hy : y.toNat < 2 ^ i) (hi : i < 16) (b : Bit) :
    (placeBit y i b).toNat = y.toNat + 2 ^ i * b.toNat := by
  cases b with
  | false => simp [placeBit]
  | true =>
    have hbit : 2 ^ i % 2 ^ 16 = 2 ^ i := Nat.mod_eq_of_lt (Nat.pow_lt_pow_right one_lt_two hi)
    calc (y ||| (1#16 <<< i)).toNat = 2 ^ i * 1 ||| y.toNat := by
          rw [BitVec.toNat_or, BitVec.toNat_shiftLeft, BitVec.toNat_ofNat, Nat.one_mod_two_pow (by decide),
            Nat.one_shiftLeft, hbit, mul_one, Nat.lor_comm]
      _ = y.toNat + 2 ^ i * 1 := by rw [← Nat.two_pow_add_eq_or_of_lt hy, add_comm]

theorem toNat_mod_two_pow_succ (w : Word) (i : Nat) :
    w.toNat % 2 ^ (i + 1) = w.toNat % 2 ^ i + 2 ^ i * (w.getLsbD i).toNat := by
  rw [Nat.mod_pow_succ, ← BitVec.testBit_toNat, Nat.toNat_testBit]

/-- What the chain keeps from stage to stage: the sum bits made so far and the carry, which weighs `2 ^ n`, are the sum of
the operands' low `n` bits and the first carry. -/
theorem rippleChain_adds (a b : Word) (subtract : Bit) {n : Nat} (hn : n ≤ 16) :
    (rippleChain a b subtract n).y.toNat < 2 ^ n ∧
    (rippleChain a b subtract n).y.toNat + 2 ^ n * (rippleChain a b subtract n).carry.toNat =
      a.toNat % 2 ^ n + (addend b subtract).toNat % 2 ^ n + subtract.toNat := by
  induction n with
  | zero => simp [rippleChain, Nat.mod_one]
  | succ i ih =>
    obtain ⟨hlow, hsum⟩ := ih (by omega)
    have hcell := fullAdder_adds (a.getLsbD i) (gateXor (b.getLsbD i) subtract) (rippleChain a b subtract i).carry
    rw [toNat_mod_two_pow_succ, toNat_mod_two_pow_succ, getLsbD_addend (by omega)]
    simp only [rippleChain, toNat_placeBit hlow (show i < 16 by omega)]
    generalize fullAdder _ _ _ = cell at hcell ⊢
    constructor
    · have hbit := Nat.mul_le_mul_left (2 ^ i) (Bool.toNat_le cell.sum)
      omega
    · linear_combination hsum - 2 ^ i * hcell

/-- All 16 stages: the result and the last carry are the 17-bit sum of the operands and the first carry. -/
theorem addSub_adds (a b : Word) (subtract : Bit) :
    (addSub a b subtract).toNat + 65536 * (carryOut a b subtract).toNat =
      a.toNat + (addend b subtract).toNat + subtract.toNat := by
  obtain ⟨-, hsum⟩ := rippleChain_adds a b subtract (n := 16) le_rfl
  rwa [Nat.mod_eq_of_lt a.isLt, Nat.mod_eq_of_lt (addend b subtract).isLt] at hsum

theorem addSub_add_adds (a b : Word) :
    (addSub a b false).toNat + 65536 * (carryOut a b false).toNat = a.toNat + b.toNat :=
  addSub_adds a b false

/-- The complement of B and the first carry are `65536 - B`. -/
theorem addSub_sub_adds (a b : Word) :
    (addSub a b true).toNat + 65536 * (carryOut a b true).toNat = a.toNat + (65535 - b.toNat) + 1 := by
  have hcomplement : (addend b true).toNat = 65535 - b.toNat := BitVec.toNat_not
  rw [addSub_adds, hcomplement, Bool.toNat_true]

theorem carryOut_add_iff (a b : Word) : carryOut a b false = true ↔ 65536 ≤ a.toNat + b.toNat := by
  have hsum := addSub_add_adds a b
  rw [← Bool.toNat_eq_one]
  omega

theorem carryOut_sub_iff (a b : Word) : carryOut a b true = true ↔ b.toNat ≤ a.toNat := by
  have hsum := addSub_sub_adds a b
  rw [← Bool.toNat_eq_one]
  omega

theorem addSub_false (a b : Word) : addSub a b false = a + b := by
  have hsum := addSub_add_adds a b
  apply BitVec.eq_of_toNat_eq
  rw [BitVec.toNat_add]
  omega

theorem addSub_true (a b : Word) : addSub a b true = a - b := by
  have hsum := addSub_sub_adds a b
  apply BitVec.eq_of_toNat_eq
  rw [BitVec.toNat_sub]
  omega

/-! ### The ALU and the unary functions as arithmetic of 16-bit vectors -/

/-- Subtraction in the integers, where it does not stop at 0. -/
theorem toNat_sub_int (a b : Word) : ((a - b).toNat : Int) = ((a.toNat : Int) - (b.toNat : Int)) % 65536 := by
  rw [BitVec.toNat_sub]
  omega

theorem alu_add (a b : Word) : alu a b false false false = a + b := addSub_false a b

theorem alu_sub (a b : Word) : alu a b true false false = a - b := addSub_true a b

/-- Multiply wins over the other two flags (R121). -/
theorem alu_mul (a b : Word) (subtract divide : Bit) : alu a b subtract true divide = a * b :=
  BitVec.eq_of_toNat_eq (BitVec.toNat_mul a b).symm

/-- Divide wins over subtract (R121), and the quotient by 0 is 0 (R127), as it is for bit vectors. -/
theorem alu_div (a b : Word) (subtract : Bit) : alu a b subtract false true = a / b := by
  change divWord a b = a / b
  unfold divWord
  split_ifs with hb
  · rw [BitVec.eq_of_toNat_eq (y := 0#16) hb, BitVec.udiv_zero]
  · exact BitVec.udiv_def.symm

theorem toNat_alu_div (a b : Word) (subtract : Bit) :
    (alu a b subtract false true).toNat = if b.toNat = 0 then 0 else a.toNat / b.toNat := by
  rw [alu_div, BitVec.toNat_udiv]
  split_ifs with hb
  · rw [hb, Nat.div_zero]
  · rfl

theorem incWord_eq (a : Word) : incWord a = a + 1#16 := alu_add a 1#16

theorem decWord_eq (a : Word) : decWord a = a - 1#16 := alu_sub a 1#16

theorem toNat_shlWord (a : Word) : (shlWord a).toNat = 2 * a.toNat % 65536 := by
  rw [shlWord, BitVec.toNat_shiftLeft, Nat.shiftLeft_eq, mul_comm]

theorem toNat_shrWord (a : Word) : (shrWord a).toNat = a.toNat / 2 := by
  rw [shrWord, BitVec.toNat_ushiftRight, Nat.shiftRight_eq_div_pow]

/-! ### The shifts, bit by bit -/

theorem getLsbD_shlWord (a : Word) (i : Nat) :
    (shlWord a).getLsbD i = (decide (1 ≤ i ∧ i ≤ 15) && a.getLsbD (i - 1)) := by
  rw [shlWord, BitVec.getLsbD_shiftLeft, ← decide_not, ← Bool.decide_and,
    decide_eq_decide.mpr (show i < 16 ∧ ¬ i < 1 ↔ 1 ≤ i ∧ i ≤ 15 by omega)]

theorem getLsbD_shrWord (a : Word) (i : Nat) : (shrWord a).getLsbD i = a.getLsbD (i + 1) := by
  rw [shrWord, BitVec.getLsbD_ushiftRight, add_comm]

/-- A word with one bit cleared. -/
theorem getLsbD_and_not_twoPow (a : Word) {k i : Nat} (hi : i < 16) :
    (a &&& ~~~BitVec.twoPow 16 k).getLsbD i = (decide (i ≠ k) && a.getLsbD i) := by
  have hbit : (BitVec.twoPow 16 k).getLsbD i = decide (i = k) := by
    rw [BitVec.getLsbD_twoPow, ← Bool.decide_and]
    exact decide_eq_decide.mpr (by omega)
  rw [BitVec.getLsbD_and, BitVec.getLsbD_not, hbit, decide_eq_true hi, Bool.true_and, decide_not, Bool.and_comm]

theorem and_not_twoPow_eq_self_iff (a : Word) {k : Nat} (hk : k < 16) :
    a &&& ~~~BitVec.twoPow 16 k = a ↔ a.getLsbD k = false := by
  constructor
  · intro h
    rw [← h, getLsbD_and_not_twoPow a hk]
    simp
  · intro h
    refine BitVec.eq_of_getLsbD_eq fun i hi => ?_
    rw [getLsbD_and_not_twoPow a hi]
    by_cases hik : i = k
    · simp [hik, h]
    · simp [hik]

theorem shrWord_shlWord (a : Word) : shrWord (shlWord a) = a &&& ~~~BitVec.twoPow 16 15 := by
  refine BitVec.eq_of_getLsbD_eq fun i hi => ?_
  rw [getLsbD_shrWord, getLsbD_shlWord, getLsbD_and_not_twoPow a hi, Nat.add_sub_cancel,
    decide_eq_decide.mpr (show 1 ≤ i + 1 ∧ i + 1 ≤ 15 ↔ i ≠ 15 by omega)]

theorem shlWord_shrWord (a : Word) : shlWord (shrWord a) = a &&& ~~~BitVec.twoPow 16 0 := by
  refine BitVec.eq_of_getLsbD_eq fun i hi => ?_
  rw [getLsbD_shlWord, getLsbD_shrWord, getLsbD_and_not_twoPow a hi]
  by_cases hzero : i = 0
  · simp [hzero]
  · rw [Nat.sub_add_cancel (by omega), decide_eq_decide.mpr (show 1 ≤ i ∧ i ≤ 15 ↔ i ≠ 0 by omega)]

/-! ### The obligations -/

/-- Settles O11: from the chain's sum, with the first carry making the complement of B into -B. -/
theorem rippleChainIsModularArithmetic : Obligations.RippleChainIsModularArithmetic := by
  intro a b
  rw [addSub_false, addSub_true, alu_add, alu_sub]
  exact ⟨rfl, rfl, BitVec.toNat_add a b, toNat_sub_int a b⟩

/-- Settles O12: the last carry is bit 16 of the chain's sum. -/
theorem finalCarryIsWrapOrNoBorrow : Obligations.FinalCarryIsWrapOrNoBorrow :=
  fun a b => ⟨carryOut_add_iff a b, carryOut_sub_iff a b⟩

/-- Settles O13: one row of the precedence table for each clause. -/
theorem aluComputesByPrecedence : Obligations.AluComputesByPrecedence := by
  intro a b subtract divide
  rw [alu_mul, toNat_alu_div, alu_add, alu_sub]
  exact ⟨BitVec.toNat_mul a b, rfl, BitVec.toNat_add a b, toNat_sub_int a b⟩

/-- Settles O14: INC and DEC add and subtract 1, the shifts move every bit by one place. -/
theorem unaryFunctionsCompute : Obligations.UnaryFunctionsCompute := by
  intro a
  refine ⟨rfl, ?inc, rfl, ?dec, ?decInc, ?incDec, toNat_shlWord a, ?shlLow, ?shlBits, toNat_shrWord a, ?shrHigh,
    fun i _ => getLsbD_shrWord a i⟩
  case inc => rw [incWord_eq, BitVec.toNat_add]; rfl
  case dec => rw [decWord_eq, toNat_sub_int]; rfl
  case decInc => rw [decWord_eq, incWord_eq, BitVec.add_sub_cancel]
  case incDec => rw [decWord_eq, incWord_eq, BitVec.sub_add_cancel]
  case shlLow => exact getLsbD_shlWord a 0
  case shlBits =>
    intro i hlow hhigh
    rw [getLsbD_shlWord, decide_eq_true ⟨hlow, hhigh⟩, Bool.true_and]
  case shrHigh => rw [getLsbD_shrWord, BitVec.getLsbD_of_ge a 16 le_rfl]

/-- Settles O15: each composition clears one bit, and clearing a bit changes nothing exactly when it is 0. -/
theorem shiftsLoseOnlyTheOuterBit : Obligations.ShiftsLoseOnlyTheOuterBit := by
  intro a
  rw [shrWord_shlWord, shlWord_shrWord]
  exact ⟨and_not_twoPow_eq_self_iff a (by decide), and_not_twoPow_eq_self_iff a (by decide), rfl, rfl⟩

end Sys2Proof.Machine
end

section
/-!
The two combinational ports (10_state R34, 41_alu R139): what `alu_y` and `un_y` answer on the pins as driven, the meaning
of each port row (O16, O17), and the step that serves a pending use (O50).
-/

namespace Sys2Proof.Machine

@[simp] theorem State.aluY_driveAlu (s : State) (subtract multiply divide : Bool) (a b : Word) :
    (s.driveAlu (aluModeOf subtract multiply divide) a b).aluY = alu a b subtract multiply divide := by
  simp [State.aluY]

/-- Settles O16: `alu_y` is the ALU of the operands under the flags driven. -/
theorem aluPortAnswersItsOperation : Obligations.AluPortAnswersItsOperation := by
  intro a b subtract divide s
  refine ⟨⟨_, rfl, rfl, ?add⟩, ⟨_, rfl, rfl, ?sub⟩, ⟨_, rfl, rfl, ?mul⟩, ⟨_, rfl, rfl, ?div⟩⟩
  case add => rw [State.aluY_driveAlu, alu_add, BitVec.toNat_add]
  case sub => rw [State.aluY_driveAlu, alu_sub, toNat_sub_int]
  case mul => rw [State.aluY_driveAlu, alu_mul, BitVec.toNat_mul]
  case div => rw [State.aluY_driveAlu, toNat_alu_div]

/-- Settles O17: `un_y` is the function the selector names, of the operand. -/
theorem unaryPortAnswersItsFunction : Obligations.UnaryPortAnswersItsFunction := by
  intro a s
  obtain ⟨-, hinc, -, hdec, -, -, hshl, -, -, hshr, -, -⟩ := unaryFunctionsCompute a
  exact ⟨⟨_, rfl, rfl, hinc⟩, ⟨_, rfl, rfl, hdec⟩, ⟨_, rfl, rfl, hshl⟩, ⟨_, rfl, rfl, hshr⟩⟩

/-- Settles O50: a pending use is the next event, whatever the core's state. -/
theorem stepServesPendingPortUses : Obligations.StepServesPendingPortUses := by
  intro s u rest hpending
  rw [step, nextEvent_port hpending]

end Sys2Proof.Machine
end

section
/-!
What the statements about one instruction share (42_data_movement R140 to 47_sync_stubs R191): the decode faults of an
opcode (30_encoding R76), and what each operation on the state leaves alone.
-/

namespace Sys2Proof.Machine

/-! ### The decode faults of an opcode -/

/-- Check 2 of R76 fails exactly when a field the shape does not use is not zero. -/
theorem unusedFieldsZero_eq_false_iff (sh : Shape) (w : InstrWord) :
    unusedFieldsZero sh w = false ↔
      (shapeUsesRa sh = false ∧ raField w ≠ 0#4) ∨ (shapeUsesRb sh = false ∧ rbField w ≠ 0#4) ∨
        (shapeUsesImm sh = false ∧ immField w ≠ 0#16) := by
  simp only [unusedFieldsZero, Bool.and_eq_false_iff, Bool.or_eq_false_iff, beq_eq_false_iff_ne, or_assoc]

/-- Check 3 of R76 fails exactly when a register field the shape uses names no register. -/
theorem usedRegistersValid_eq_false_iff (sh : Shape) (w : InstrWord) :
    usedRegistersValid sh w = false ↔
      (shapeUsesRa sh = true ∧ 7 < (raField w).toNat) ∨ (shapeUsesRb sh = true ∧ 7 < (rbField w).toNat) := by
  simp only [usedRegistersValid, RegField.wf, Bool.and_eq_false_iff, Bool.or_eq_false_iff, Bool.not_eq_false',
    decide_eq_false_iff_not, Nat.not_lt, Nat.succ_le_iff]

theorem faultsOfShape_opcode (op : Opcode) : FaultsOfShape (opcodeShape op) (opcodeNumber op) := by
  intro w hop
  have hchecks := decode_of_opcodeOf (w := w) (op := op) (by rw [hop, opcodeOf_opcodeNumber])
  split
  case isTrue hunused =>
    rw [hchecks, (unusedFieldsZero_eq_false_iff _ w).mpr hunused]
    rfl
  case isFalse hunused =>
    intro hregs
    rw [← unusedFieldsZero_eq_false_iff, Bool.not_eq_false] at hunused
    rw [hchecks, hunused, (usedRegistersValid_eq_false_iff _ w).mpr hregs]
    rfl

/-! ### What the operations on the state leave alone -/

theorem State.doneWith_complete (s : State) (o : Out) : DoneWith o (s.complete o) := ⟨rfl, rfl, rfl⟩

theorem SameElsewhere.refl (s : State) : SameElsewhere s s :=
  ⟨⟨rfl, rfl⟩, ⟨rfl, rfl, rfl⟩, ⟨rfl, rfl, rfl⟩, ⟨rfl, rfl, rfl, rfl, rfl, rfl⟩, rfl, rfl⟩

section
variable {s t : State}

theorem SameElsewhere.writeReg (h : SameElsewhere s t) (i : Fin 8) (v : Word) : SameElsewhere s (t.writeReg i v) := h

theorem SameElsewhere.complete (h : SameElsewhere s t) (o : Out) : SameElsewhere s (t.complete o) := h

/-- Two states with the same memory have the same cells. -/
theorem sameCells_of_mem_eq (h : t.mem = s.mem) : SameCellsExcept [] s t := fun a _ => State.readMem_congr h a

theorem SameRegsExcept.complete {written : List (Fin 8)} (h : SameRegsExcept written s t) (o : Out) :
    SameRegsExcept written s (t.complete o) := h

end

theorem State.sameRegsExcept_writeReg (s : State) (i : Fin 8) (v : Word) : SameRegsExcept [i] s (s.writeReg i v) :=
  fun j hj => s.writeReg_readReg_other i j v (List.ne_of_not_mem_cons hj)

end Sys2Proof.Machine
end

section
/-!
Data movement (42_data_movement): MOV's word, its faults and its effect (R140, O18).
-/

namespace Sys2Proof.Machine

/-- Settles O18: MOV's effect is one write of a register, which leaves everything else alone. -/
theorem movWritesItsImmediate : Obligations.MovWritesItsImmediate := by
  refine ⟨faultsOfShape_opcode .mov, fun r v s => ⟨decode_wordRI (op := .mov) rfl (wf_regField r), ?effect⟩⟩
  case effect =>
    have hexec := exec_of_effect (CoreEffect.mov (s := s) r v)
    exact ⟨_, hexec, s.writeReg_readReg_same r v, (s.sameRegsExcept_writeReg r v).complete .none, rfl,
      sameCells_of_mem_eq rfl, ((SameElsewhere.refl s).writeReg r v).complete .none, State.doneWith_complete _ .none⟩

end Sys2Proof.Machine
end

section
/-!
What the statements about one instruction share, continued (43_jump_and_predicates R145 to 44_stack R158): what a write
of `sp` or of a cell leaves alone, and PUSH and POP at a known `sp`.
-/

namespace Sys2Proof.Machine

/-! ### What the operations on the state leave alone -/

theorem State.sameCore_complete (s : State) (o : Out) : SameCore s (s.complete o) := ⟨rfl, rfl, rfl, rfl, rfl⟩

section
variable {s t : State}

/-- Two states with the same registers agree on each of them. -/
theorem sameRegs_of_x_eq (h : t.x = s.x) : SameRegsExcept [] s t := fun j _ => State.readReg_congr h j

theorem SameElsewhere.writeSp (h : SameElsewhere s t) (v : Word) : SameElsewhere s (t.writeSp v) := h

end

theorem State.sameCellsExcept_writeMem {s : State} (hwf : Memory.wf s.mem = true) (a : Nat) (v : Word) :
    SameCellsExcept [a] s (s.writeMem a v) :=
  fun _ hb => State.writeMem_readMem_other hwf v (List.ne_of_not_mem_cons hb)

/-! ### PUSH and POP at a known stack pointer -/

/-- A `sp` inside the memory's range fits in a Word, because the capacity is at most 65535 (00 R8). -/
theorem State.CapacityOk.toNat_ofNat {s : State} (h : s.CapacityOk) {n : Nat} (hn : n ≤ s.memWords) :
    (BitVec.ofNat 16 n).toNat = n := by
  have hmax : s.memWords ≤ 65535 := h.2
  rw [BitVec.toNat_ofNat, Nat.mod_eq_of_lt (by omega)]

section
variable {s : State} {a : Nat}

/-- POP with `sp = a + 1` inside the memory loads cell `a` (44 R158). -/
theorem exec_pop_at (r : Fin 8) (hsp : s.sp.toNat = a + 1) (ha : a < s.memWords) :
    ∃ t, exec (.pop (regField r)) s = .next t ∧ t.readReg r = s.readMem a ∧ t.sp.toNat = a ∧ SameRegsExcept [r] s t ∧
      SameCellsExcept [] s t := by
  have hcell : s.sp.toNat - 1 = a := by omega
  refine ⟨_, exec_of_effect (.pop r (by omega) (by omega)), ?loaded, ?sp,
    (State.sameRegsExcept_writeReg _ r _).complete .none, sameCells_of_mem_eq rfl⟩
  case loaded =>
    rw [hcell]
    exact State.writeReg_readReg_same _ r _
  case sp =>
    have hle : 1#16 ≤ s.sp := by bv_omega
    exact (BitVec.toNat_sub_of_le hle).trans hcell

/-- PUSH with `sp = a` inside the memory stores to cell `a` (44 R155). -/
theorem exec_push_at (r : Fin 8) (hcap : s.CapacityOk) (hwf : Memory.wf s.mem = true) (hsp : s.sp.toNat = a)
    (ha : a < s.memWords) :
    ∃ t, exec (.push (regField r)) s = .next t ∧ t.readMem a = s.readReg r ∧ t.sp.toNat = a + 1 ∧
      SameRegsExcept [] s t ∧ SameCellsExcept [a] s t := by
  subst hsp
  refine ⟨_, exec_of_effect (.push r ha), State.writeMem_readMem_same hwf _ _, ?sp, sameRegs_of_x_eq rfl,
    State.sameCellsExcept_writeMem hwf _ _⟩
  case sp =>
    have hmax : s.memWords ≤ 65535 := hcap.2
    exact BitVec.toNat_add_of_lt (show s.sp.toNat + 1 < 2 ^ 16 by omega)

end

end Sys2Proof.Machine
end

section
/-!
JMP and the jump-predicate queries (43_jump_and_predicates): JMP sets `sp` and nothing else (R145, O19), JZ and JC send
their flag (R148, R150, O20), and JMP with POP or PUSH reaches every cell (R146, O31).
-/

namespace Sys2Proof.Machine

/-- Settles O31: JMP puts `sp` at the cell a POP loads or a PUSH stores to, and leaves all that these read. -/
theorem jmpReachesEveryCell : Obligations.JmpReachesEveryCell := by
  intro a r s hcap hwf ha
  constructor
  case left =>
    obtain ⟨u, hpop⟩ :=
      exec_pop_at (s := (s.writeSp (BitVec.ofNat 16 (a + 1))).complete .none) r (hcap.toNat_ofNat ha) ha
    exact ⟨_, u, exec_of_effect (.jmp _), hpop⟩
  case right =>
    obtain ⟨u, hpush⟩ :=
      exec_push_at (s := (s.writeSp (BitVec.ofNat 16 a)).complete .none) r hcap hwf (hcap.toNat_ofNat ha.le) ha
    exact ⟨_, u, exec_of_effect (.jmp _), hpush⟩

/-- Settles O19: JMP's effect is one write of `sp`, whatever its operand. -/
theorem jmpSetsOnlyTheStackPointer : Obligations.JmpSetsOnlyTheStackPointer := by
  refine ⟨faultsOfShape_opcode .jmp, fun a s => ⟨decode_wordI (op := .jmp) rfl, ?effect⟩⟩
  case effect =>
    exact ⟨_, exec_of_effect (.jmp a), rfl, sameRegs_of_x_eq rfl, sameCells_of_mem_eq rfl,
      ((SameElsewhere.refl s).writeSp a).complete .none, State.doneWith_complete _ .none⟩

/-- A completed step with output `Pred b` drives `b` with `pred_valid` up and leaves the core as it was. -/
theorem State.complete_pred (s : State) (b : Bit) :
    (s.complete (.pred b)).predOut = b ∧ (s.complete (.pred b)).predValid = true ∧
      DoneWith (.pred b) (s.complete (.pred b)) ∧ SameCore s (s.complete (.pred b)) ∧
      SameElsewhere s (s.complete (.pred b)) :=
  ⟨rfl, rfl, s.doneWith_complete _, s.sameCore_complete _, (SameElsewhere.refl s).complete _⟩

/-- Settles O20: the effect of JZ and of JC is the output alone, with the flag each is named for. -/
theorem jzAndJcReportTheirFlag : Obligations.JzAndJcReportTheirFlag := by
  refine ⟨faultsOfShape_opcode .jz, faultsOfShape_opcode .jc, decode_wordZ (op := .jz) rfl,
    decode_wordZ (op := .jc) rfl, fun s => ⟨?jz, ?jc⟩⟩
  case jz => exact ⟨_, exec_of_effect .jz, s.complete_pred s.zf⟩
  case jc => exact ⟨_, exec_of_effect .jc, s.complete_pred s.cf⟩

end Sys2Proof.Machine
end

section
/-!
What the statements about one instruction share, continued (44_stack R157, R158): what a write of a cell and a fault
leave alone, and what two instructions in turn leave alone.
-/

namespace Sys2Proof.Machine

section
variable {s t u : State}

theorem SameElsewhere.writeMem (h : SameElsewhere s t) (a : Nat) (v : Word) : SameElsewhere s (t.writeMem a v) := h

theorem SameElsewhere.memWords_eq (h : SameElsewhere s t) : t.memWords = s.memWords := by
  obtain ⟨-, -, ⟨hwords, -, -⟩, -⟩ := h
  exact hwords

/-! ### One state change after another -/

theorem SameRegsExcept.trans {written written' : List (Fin 8)} (h : SameRegsExcept written s t)
    (h' : SameRegsExcept written' t u) : SameRegsExcept (written ++ written') s u := fun j hj => by
  rw [List.mem_append, not_or] at hj
  exact (h' j hj.2).trans (h j hj.1)

theorem SameCellsExcept.trans {written written' : List Nat} (h : SameCellsExcept written s t)
    (h' : SameCellsExcept written' t u) : SameCellsExcept (written ++ written') s u := fun a ha => by
  rw [List.mem_append, not_or] at ha
  exact (h' a ha.2).trans (h a ha.1)

theorem SameElsewhere.trans (h : SameElsewhere s t) (h' : SameElsewhere t u) : SameElsewhere s u := by
  simp only [SameElsewhere, SameFlags, SameFaultRecord, SameEnvironment, SamePorts] at h h' ⊢
  simp only [h', h, and_self]

end

/-! ### Taking a fault -/

theorem State.faultTaken_raise (s : State) (f : FaultCause) (w : InstrWord) :
    FaultTaken (causeCode f) w s (s.raise f w) := ⟨rfl, rfl, rfl, ⟨rfl, rfl, rfl⟩, ⟨rfl, rfl, rfl, rfl, rfl⟩⟩

theorem State.sameEnvironment_raise (s : State) (f : FaultCause) (w : InstrWord) : SameEnvironment s (s.raise f w) :=
  ⟨rfl, rfl, rfl⟩

theorem State.samePorts_raise (s : State) (f : FaultCause) (w : InstrWord) : SamePorts s (s.raise f w) :=
  ⟨rfl, rfl, rfl, rfl, rfl, rfl⟩

end Sys2Proof.Machine
end

section
/-!
The stack (44_stack): PUSH stores or does nothing (R155, O21), POP loads, does nothing or faults (R158, O22), and PUSH
then POP copies (R157, O30).
-/

namespace Sys2Proof.Machine

/-- Settles O21: with room PUSH writes one cell and `sp`, without room it only completes. -/
theorem pushStoresAtSpOrDoesNothing : Obligations.PushStoresAtSpOrDoesNothing := by
  refine ⟨faultsOfShape_opcode .push, fun r s hcap hwf => ⟨decode_wordR (op := .push) rfl (wf_regField r), ?effect⟩⟩
  case effect =>
    split
    case isTrue room =>
      obtain ⟨t, hexec, hcell, hsp, hregs, hcells⟩ := exec_push_at r hcap hwf rfl room
      obtain ⟨rfl⟩ := (exec_of_effect (.push r room)).symm.trans hexec
      exact ⟨_, hexec, hregs, (((SameElsewhere.refl s).writeMem _ _).writeSp _).complete .none,
        State.doneWith_complete _ .none, hcell, hcells, hsp⟩
    case isFalse full =>
      exact ⟨_, exec_of_effect (.pushFull r (Nat.le_of_not_lt full)), sameRegs_of_x_eq rfl,
        (SameElsewhere.refl s).complete .none, s.doneWith_complete .none, rfl, sameCells_of_mem_eq rfl⟩

/-- Settles O22: POP's three branches are `sp = 0`, a Word below `sp`, and `sp` above the memory. -/
theorem popLoadsOrDoesNothingOrFaults : Obligations.PopLoadsOrDoesNothingOrFaults := by
  refine ⟨faultsOfShape_opcode .pop, fun r s => ⟨decode_wordR (op := .pop) rfl (wf_regField r), ?effect⟩⟩
  case effect =>
    split
    case isTrue empty =>
      exact ⟨_, exec_of_effect (.popEmpty r (congrArg BitVec.toNat empty)), sameCells_of_mem_eq rfl, ⟨rfl, rfl⟩,
        s.sameCore_complete .none, (SameElsewhere.refl s).complete .none, s.doneWith_complete .none⟩
    case isFalse nonempty =>
      have hsome : 0 < s.sp.toNat := by bv_omega
      split
      case isTrue inside =>
        obtain ⟨t, hexec, hload, hsp, hregs, hcells⟩ := exec_pop_at r (Nat.sub_add_cancel hsome).symm (by omega)
        obtain ⟨rfl⟩ := (exec_of_effect (.pop r hsome inside)).symm.trans hexec
        exact ⟨_, hexec, hcells, ⟨rfl, rfl⟩, hload, hsp, hregs,
          (((SameElsewhere.refl s).writeSp _).writeReg r _).complete .none, State.doneWith_complete _ .none⟩
      case isFalse outside =>
        exact ⟨_, exec_of_effect (.popOutside r hsome (Nat.lt_of_not_le outside)), sameCells_of_mem_eq rfl, ⟨rfl, rfl⟩,
          s.faultTaken_raise .memoryIndexOutOfRange _, s.sameEnvironment_raise _ _, s.samePorts_raise _ _, rfl⟩

/-- Settles O30: the POP finds `sp` one above the cell the PUSH wrote, so it loads that cell and takes `sp` back. -/
theorem pushThenPopCopies : Obligations.PushThenPopCopies := by
  intro r d s hcap hwf room
  obtain ⟨-, t, hpush, hregs, helse, -, hstored⟩ := pushStoresAtSpOrDoesNothing.2 r s hcap hwf
  rw [if_pos room] at hstored
  obtain ⟨hcell, hcells, hsp⟩ := hstored
  have nonempty : t.sp ≠ 0#16 := by bv_omega
  have inside : t.sp.toNat ≤ t.memWords := by
    rw [hsp, helse.memWords_eq]
    exact room
  obtain ⟨-, u, hpop, hcells', -, hloaded⟩ := popLoadsOrDoesNothingOrFaults.2 d t
  rw [if_neg nonempty, if_pos inside, hsp, Nat.add_sub_cancel] at hloaded
  obtain ⟨hload, hsp', hregs', helse', -⟩ := hloaded
  exact ⟨t, u, hpush, hpop, hload.trans hcell, hregs.trans hregs', BitVec.eq_of_toNat_eq hsp',
    (hcells' _ List.not_mem_nil).trans hcell, hcells.trans hcells', helse.trans helse'⟩

end Sys2Proof.Machine
end

section
/-!
The arithmetic instructions (45_arithmetic): ADD's and SUB's words, their faults and their effects (R165, O23; R166, O24).
-/

namespace Sys2Proof.Machine

/-- An instruction whose effect is one completed write of a register gives it that value and changes nothing else. -/
theorem exec_of_writeReg_effect {s : State} {i : Instr} {r : Fin 8} {v : Word}
    (e : CoreEffect s i ((s.writeReg r v).complete .none)) :
    ∃ t, exec i s = .next t ∧ t.readReg r = v ∧ SameRegsExcept [r] s t ∧ t.sp = s.sp ∧ SameCellsExcept [] s t ∧
      SameElsewhere s t ∧ DoneWith .none t :=
  ⟨_, exec_of_effect e, s.writeReg_readReg_same r v, (s.sameRegsExcept_writeReg r v).complete .none, rfl,
    sameCells_of_mem_eq rfl, ((SameElsewhere.refl s).writeReg r v).complete .none, State.doneWith_complete _ .none⟩

/-- The word of an operation on two registers decodes, whichever registers they are (30 R79). -/
theorem decode_wordRR_regField {op : Opcode} (hshape : opcodeShape op = .rr) (r q : Fin 8) :
    decode (wordRR op (regField r) (regField q)) = .ok (instrOfFields op (regField r) (regField q) 0#16) :=
  decode_wordRR hshape (by rw [wf_regField, wf_regField, Bool.and_self])

/-- Settles O23: ADD's effect is one write of a register, of the ALU's sum of the two old values. -/
theorem addWritesTheSum : Obligations.AddWritesTheSum := by
  refine ⟨faultsOfShape_opcode .add, fun r q s => ⟨decode_wordRR_regField (op := .add) rfl r q, ?effect⟩⟩
  case effect =>
    obtain ⟨t, hexec, hvalue, hframe⟩ := exec_of_writeReg_effect (CoreEffect.add (s := s) r q)
    have hsum : (t.readReg r).toNat = ((s.readReg r).toNat + (s.readReg q).toNat) % 65536 := by
      rw [hvalue, alu_add]
      exact BitVec.toNat_add _ _
    exact ⟨t, hexec, hvalue, hsum, hframe⟩

/-- Settles O24: SUB's effect is one write of a register, of the ALU's difference of the two old values. -/
theorem subWritesTheDifference : Obligations.SubWritesTheDifference := by
  refine ⟨faultsOfShape_opcode .sub, fun r q s => ⟨decode_wordRR_regField (op := .sub) rfl r q, ?effect⟩⟩
  case effect =>
    obtain ⟨t, hexec, hvalue, hframe⟩ := exec_of_writeReg_effect (CoreEffect.sub (s := s) r q)
    have hdifference :
        ((t.readReg r).toNat : Int) = (((s.readReg r).toNat : Int) - ((s.readReg q).toNat : Int)) % 65536 := by
      rw [hvalue, alu_sub, toNat_sub_int]
    exact ⟨t, hexec, hvalue, hdifference, hframe⟩

end Sys2Proof.Machine
end

section
/-!
The exchange instructions (46_exchange): XCHG's word, its faults and its swap (R170, O25), and CMPXCHG's word, its faults
and that it only completes (R173, R174, O26).
-/

namespace Sys2Proof.Machine

theorem State.writeReg_comm (s : State) {i j : Fin 8} (h : i ≠ j) (v v' : Word) :
    (s.writeReg i v).writeReg j v' = (s.writeReg j v').writeReg i v := by
  simp only [State.writeReg, Vector.set_comm v v' (Fin.val_ne_of_ne h)]

/-- What XCHG does to the registers (R170): each of the two is given what the other held. -/
def State.swapRegs (s : State) (r q : Fin 8) : State := (s.writeReg r (s.readReg q)).writeReg q (s.readReg r)

/-- After a swap, reading a register reads the one it was swapped with. -/
theorem State.swapRegs_readReg (s : State) (r q j : Fin 8) :
    (s.swapRegs r q).readReg j = s.readReg (Equiv.swap r q j) := by
  rw [State.swapRegs, State.writeReg_readReg, State.writeReg_readReg, Equiv.swap_comm, Equiv.swap_apply_def,
    apply_ite s.readReg, apply_ite s.readReg]

theorem State.swapRegs_comm (s : State) (r q : Fin 8) : s.swapRegs r q = s.swapRegs q r := by
  by_cases h : r = q
  · rw [h]
  · exact s.writeReg_comm h _ _

theorem State.sameRegsExcept_swapRegs (s : State) (r q : Fin 8) : SameRegsExcept [r, q] s (s.swapRegs r q) :=
  SameRegsExcept.trans (s.sameRegsExcept_writeReg r _) (State.sameRegsExcept_writeReg _ q _)

theorem exec_xchg (r q : Fin 8) (s : State) :
    exec (.xchg (regField r) (regField q)) s = .next ((s.swapRegs r q).complete .none) :=
  exec_of_effect (.xchg r q)

/-- A second swap of the same two registers undoes the first, whatever the first one's output. -/
theorem State.sameRegs_swapRegs_twice (s : State) (r q : Fin 8) (o : Out) :
    SameRegsExcept [] s (((s.swapRegs r q).complete o).swapRegs r q) := fun j _ => by
  calc (((s.swapRegs r q).complete o).swapRegs r q).readReg j
      = (s.swapRegs r q).readReg (Equiv.swap r q j) := State.swapRegs_readReg _ r q j
    _ = s.readReg (Equiv.swap r q (Equiv.swap r q j)) := s.swapRegs_readReg r q _
    _ = s.readReg j := by rw [Equiv.swap_apply_self]

/-- Settles O25: XCHG is a swap of two registers, which is symmetric in them and its own inverse. -/
theorem xchgSwapsTwoRegisters : Obligations.XchgSwapsTwoRegisters := by
  refine ⟨faultsOfShape_opcode .xchg, fun r q s => ⟨decode_wordRR_regField (op := .xchg) rfl r q, ?effect⟩⟩
  case effect =>
    have hsymm : exec (.xchg (regField q) (regField r)) s = .next ((s.swapRegs r q).complete .none) := by
      rw [exec_xchg, s.swapRegs_comm]
    have hleft : (s.swapRegs r q).readReg r = s.readReg q := by rw [s.swapRegs_readReg, Equiv.swap_apply_left]
    have hright : (s.swapRegs r q).readReg q = s.readReg r := by rw [s.swapRegs_readReg, Equiv.swap_apply_right]
    exact ⟨_, _, exec_xchg r q s, hsymm, hleft, hright, (s.sameRegsExcept_swapRegs r q).complete .none, rfl,
      sameCells_of_mem_eq rfl, (((SameElsewhere.refl s).writeReg r _).writeReg q _).complete .none,
      State.doneWith_complete _ .none, exec_xchg r q _, (s.sameRegs_swapRegs_twice r q .none).complete .none⟩

/-- Settles O26: CMPXCHG's one effect, equal registers or not, is to complete with no output. -/
theorem cmpxchgChangesAndReportsNothing : Obligations.CmpxchgChangesAndReportsNothing :=
  ⟨faultsOfShape_opcode .cmpxchg, fun r q s => ⟨decode_wordRR_regField (op := .cmpxchg) rfl r q,
    _, exec_of_effect (.cmpxchg r q), s.sameCore_complete .none, (SameElsewhere.refl s).complete .none,
    s.doneWith_complete .none⟩⟩

end Sys2Proof.Machine
end

section
/-!
LOCK (47_sync_stubs): its word, its faults, what it leaves alone, and when it completes or is held (R180, R182, O27);
and that a LOCK without a grant is held for ever (R183, O28).
-/

namespace Sys2Proof.Machine

/-- A run goes on from the state its first step answers. -/
theorem core_run_succ {s t : State} (h : step s = .next t) (n : Nat) : core.run (n + 1) s = core.run n t := by
  have hstep : core.step s = .next t := h
  simp only [Host.Core.run, hstep]

/-- LOCK's word (30 R75). -/
theorem decode_lock : decode 0x0B000000#32 = .ok .lock := decode_wordZ (op := .lock) rfl

/-! ### One request of LOCK -/

theorem State.lockGranted_eq (s : State) : s.lockGranted = s.lockGnts.head?.getD s.lockGntRest := by
  unfold State.lockGranted
  cases s.lockGnts <;> rfl

/-- Granted or held, LOCK uses up one answer of the arbiter and touches nothing but that and the outputs. -/
theorem CoreEffect.lock_frame {s t : State} (e : CoreEffect s .lock t) :
    SameCore s t ∧ SameFaultRecord s t ∧ SameEnvironment s t ∧ SamePorts s t ∧ t.k = s.k ∧
      t.lockGnts = s.lockGnts.tail := by
  cases e with
  | lockGranted | lockHeld =>
    exact ⟨⟨rfl, rfl, rfl, rfl, rfl⟩, ⟨rfl, rfl, rfl⟩, ⟨rfl, rfl, rfl⟩, ⟨rfl, rfl, rfl, rfl, rfl, rfl⟩, rfl, rfl⟩

/-! ### A LOCK without a grant -/

section
variable {s : State}

/-- The sequencer presents LOCK, and neither the arbiter's listed answers nor its level after them grants it. -/
structure State.AtUngrantedLock (s : State) : Prop where
  presents : s.Presents 0x0B000000#32
  listed : ∀ g ∈ s.lockGnts, g = false
  rest : s.lockGntRest = false

theorem State.AtUngrantedLock.not_granted (h : s.AtUngrantedLock) : s.lockGranted = false := by
  rw [State.lockGranted_eq]
  cases hlist : s.lockGnts with
  | nil => exact h.rest
  | cons g _ => exact h.listed g (hlist ▸ List.mem_cons_self)

theorem State.AtUngrantedLock.step_eq (h : s.AtUngrantedLock) : step s = .next s.takeLockAnswer.hold :=
  step_of_stepEffect (.run _ _ _ h.presents decode_lock (.lockHeld h.not_granted))

/-- The hold leads back to the same situation, with one answer fewer to come. -/
theorem State.AtUngrantedLock.hold (h : s.AtUngrantedLock) : s.takeLockAnswer.hold.AtUngrantedLock :=
  ⟨h.presents, fun g hg => h.listed g (List.mem_of_mem_tail hg), h.rest⟩

/-- `s` held in LOCK, after the arbiter has given `n` answers. -/
def State.heldAfter (s : State) (n : Nat) : State := { s with lockGnts := s.lockGnts.drop n }.hold

theorem State.heldAfter_one (s : State) : s.heldAfter 1 = s.takeLockAnswer.hold := by
  rw [State.heldAfter, State.takeLockAnswer, List.drop_one]

theorem State.heldAfter_hold (s : State) (n : Nat) : s.takeLockAnswer.hold.heldAfter n = s.heldAfter (n + 1) := by
  simp only [State.heldAfter, State.hold, State.takeLockAnswer, List.drop_tail]

/-- A LOCK without a grant stays in its hold however often it asks. -/
theorem State.AtUngrantedLock.run_eq (h : s.AtUngrantedLock) (n : Nat) :
    core.run (n + 1) s = .next (s.heldAfter (n + 1)) := by
  induction n generalizing s with
  | zero =>
    rw [core_run_succ h.step_eq, State.heldAfter_one]
    rfl
  | succ n ih =>
    calc core.run (n + 2) s = core.run (n + 1) s.takeLockAnswer.hold := core_run_succ h.step_eq (n + 1)
      _ = .next (s.takeLockAnswer.hold.heldAfter (n + 1)) := ih h.hold
      _ = .next (s.heldAfter (n + 2)) := congrArg _ (s.heldAfter_hold (n + 1))

end

/-! ### The obligations -/

/-- Settles O27: LOCK's two effects are the grant and the hold, chosen by the arbiter's next answer. -/
theorem lockCompletesWhenGrantedElseHolds : Obligations.LockCompletesWhenGrantedElseHolds := by
  refine ⟨faultsOfShape_opcode .lock, decode_lock, fun s => ?effect⟩
  obtain ⟨t, hexec, effect⟩ := exec_core (i := .lock) rfl rfl s
  obtain ⟨hcore, hrecord, henv, hports, hk, hanswers⟩ := effect.lock_frame
  refine ⟨t, hexec, hcore, hrecord, henv, hports, hk, hanswers, ?outputs⟩
  rw [← State.lockGranted_eq]
  cases effect with
  | lockGranted granted =>
    rw [if_pos granted]
    exact State.doneWith_complete _ .none
  | lockHeld held =>
    rw [held, if_neg Bool.false_ne_true]
    exact ⟨rfl, rfl, rfl⟩

/-- Settles O28: the held state is `s` but for the outputs and the answers used up, and still presents the LOCK. -/
theorem ungrantedLockIsHeldForEver : Obligations.UngrantedLockIsHeldForEver := by
  intro s n hpresents hlisted hrest
  have hlock : s.AtUngrantedLock := ⟨hpresents, hlisted, hrest⟩
  obtain ⟨-, -, hword⟩ := hpresents
  have hnotEnded : ¬ (s.heldAfter (n + 1)).RunEnded := fun ⟨hended, _⟩ =>
    (State.k_lt_of_presented hword).not_ge hended
  exact ⟨_, hlock.run_eq n, ⟨rfl, rfl, rfl, rfl, rfl⟩, ⟨rfl, rfl, rfl⟩, rfl, rfl, hnotEnded⟩

end Sys2Proof.Machine
end

section
/-!
The five stubs that only notify (47_sync_stubs R184 to R190, O29).
-/

namespace Sys2Proof.Machine

/-- A completed step with output `Note c` drives `c` with `pred_valid` down and leaves the core as it was. -/
theorem State.complete_note (s : State) (c : BitVec 3) :
    (s.complete (.note c)).noteOut = c ∧ (s.complete (.note c)).predValid = false ∧
      DoneWith (.note c) (s.complete (.note c)) ∧ SameCore s (s.complete (.note c)) ∧
      SameElsewhere s (s.complete (.note c)) :=
  ⟨rfl, rfl, s.doneWith_complete _, s.sameCore_complete _, (SameElsewhere.refl s).complete _⟩

/-- An operation without operands whose one effect is to complete with `Note c` is a stub as R184 to R189 describe it. -/
theorem stub_notifies {op : Opcode} {c : BitVec 3} (hshape : opcodeShape op = .z)
    (heffect : ∀ s, CoreEffect s (instrOfFields op 0#4 0#4 0#16) (s.complete (.note c))) :
    FaultsOfShape .z (opcodeNumber op) ∧ decode (wordZ op) = .ok (instrOfFields op 0#4 0#4 0#16) ∧
      ∀ s : State, ∃ t, exec (instrOfFields op 0#4 0#4 0#16) s = .next t ∧ t.noteOut = c ∧ t.predValid = false ∧
        DoneWith (.note c) t ∧ SameCore s t ∧ SameElsewhere s t :=
  ⟨hshape ▸ faultsOfShape_opcode op, decode_wordZ hshape, fun s => ⟨_, exec_of_effect (heffect s), s.complete_note c⟩⟩

/-- Settles O29: each of the five is an operation without operands that only completes with its notification. -/
theorem stubsOnlySendTheirNotification : Obligations.StubsOnlySendTheirNotification := by
  intro p hp
  fin_cases hp
  · exact stub_notifies (op := .cli) rfl fun _ => .cli
  · exact stub_notifies (op := .sti) rfl fun _ => .sti
  · exact stub_notifies (op := .sfence) rfl fun _ => .sfence
  · exact stub_notifies (op := .lfence) rfl fun _ => .lfence
  · exact stub_notifies (op := .mfence) rfl fun _ => .mfence

end Sys2Proof.Machine
end

section
/-!
The outputs of a step reach no later step of the core (47_sync_stubs R191, 70_reset_and_hazards R236, O45): whatever the
core does next, it drives every output anew.
-/

namespace Sys2Proof.Machine

/-- `s` with the outputs an earlier step might have left instead (10 R34). -/
def State.driveOutputs (s : State) (o : Out) (done req : Bit) : State :=
  { s with out := o, instrDone := done, lockReq := req }

/-- A core instruction drives every output, on each of its paths; a use of a port drives none, and has no word. -/
theorem exec_driveOutputs {i : Instr} {w : InstrWord} (hword : encode i = .word w) (s : State) (o : Out)
    (done req : Bit) : exec i (s.driveOutputs o done req) = exec i s := by
  cases i with
  | aluAdd | aluSub | aluMul | aluDiv | inc | dec | shl | shr => cases hword
  | _ => rfl

/-- With other outputs left over a step of the core ends in the same state. -/
theorem StepEffect.driveOutputs {s t : State} (e : StepEffect s t) (hp : s.portUses = []) (o : Out) (done req : Bit) :
    StepEffect (s.driveOutputs o done req) t := by
  cases e with
  | alu mode a b rest pending => cases hp.symm.trans pending
  | un fn a rest pending => cases hp.symm.trans pending
  | idle free running ended => exact .idle free running ended
  | badWord w f presents bad => exact .badWord w f presents bad
  | run w i u presents decodes effect =>
    have hexec : exec i (s.driveOutputs o done req) = .next u :=
      (exec_driveOutputs (encode_of_decode decodes) s o done req).trans (exec_of_effect effect)
    exact .run w i u presents decodes (effect_of_exec (wellFormed_of_decode decodes) (encode_of_decode decodes) hexec)

/-- Settles O45: the same step is taken with other outputs left over, and a stop does not depend on them. -/
theorem outputsFeedNothing : Obligations.OutputsFeedNothing := by
  intro s o done req hp
  change step (s.driveOutputs o done req) = step s
  cases hf : s.fault with
  | true =>
    have hstop : step (s.driveOutputs o done req) = .fault .halted := step_halted hp hf
    rw [hstop, step_halted hp hf]
  | false =>
    obtain ⟨t, effect⟩ := exists_stepEffect fun _ => hf
    rw [step_of_stepEffect effect]
    exact step_of_stepEffect (effect.driveOutputs hp o done req)

end Sys2Proof.Machine
end

section
/-!
Faults (60_exceptions): the ways a step can fault, said once (R203 to R206), and from it that the fault record stays true
(R202, O38) and that faults are precise (R203, O35); what a word that does not decode does (R203 to R205, R208, O33, O34)
and an instruction that is ill-formed (R205, O32); and that a faulted core only serves its ports (R209, O36).
-/

namespace Sys2Proof.Machine

/-! ### The ways a step can fault -/

/-- `s.FaultsOn w f`: in `s` the step of the word `w` raises `f`. A POP above the memory is the one fault of a word that
decodes. -/
inductive State.FaultsOn (s : State) : InstrWord → FaultCause → Prop
  | badWord {w : InstrWord} (d : DecodeFault) (bad : decode w = .error d) : s.FaultsOn w (decodeFaultCause d)
  | popOutside {w : InstrWord} {r : Fin 8} (decodes : decode w = .ok (.pop (regField r)))
      (outside : s.memWords < s.sp.toNat) : s.FaultsOn w .memoryIndexOutOfRange

section
variable {s t u : State} {i : Instr} {w : InstrWord} {f : FaultCause}

theorem CoreEffect.sameFaultRecord_or_popOutside (e : CoreEffect s i u) :
    SameFaultRecord s u ∨ ∃ r, i = .pop (regField r) ∧ s.memWords < s.sp.toNat ∧
      u = s.raise .memoryIndexOutOfRange (wordR .pop (regField r)) := by
  cases e with
  | popOutside r some outside => exact .inr ⟨r, rfl, outside, rfl⟩
  | _ => exact .inl ⟨rfl, rfl, rfl⟩

theorem SameFaultRecord.advance (h : SameFaultRecord s t) : SameFaultRecord s t.advance := by
  simpa [SameFaultRecord] using h

/-- A step leaves the fault record alone or takes the fault of the word presented. -/
theorem StepEffect.sameFaultRecord_or_faults (e : StepEffect s t) :
    SameFaultRecord s t ∨ ∃ w f, s.Presents w ∧ s.FaultsOn w f ∧ t = (s.raise f w).advance := by
  cases e with
  | alu => exact .inl ⟨rfl, rfl, rfl⟩
  | un => exact .inl ⟨rfl, rfl, rfl⟩
  | idle => exact .inl ⟨rfl, rfl, rfl⟩
  | badWord w d presents bad => exact .inr ⟨w, _, presents, .badWord d bad, rfl⟩
  | run w i u presents decodes effect =>
    obtain hsame | ⟨r, rfl, outside, rfl⟩ := effect.sameFaultRecord_or_popOutside
    · exact .inl hsame.advance
    · obtain rfl : wordR .pop (regField r) = w := Encoded.word.inj (encode_of_decode decodes)
      exact .inr ⟨_, _, presents, .popOutside decodes outside, rfl⟩

/-- The fault entry of 60 R203, the sequencer going on: the record, and all that stays. -/
theorem State.advance_raise_frame (s : State) (f : FaultCause) (w : InstrWord) :
    FaultTaken (causeCode f) w s (s.raise f w).advance ∧ SameEnvironment s (s.raise f w).advance ∧
      SamePorts s (s.raise f w).advance ∧ (s.raise f w).advance.k = s.k + 1 :=
  ⟨s.faultTaken_raise f w, s.sameEnvironment_raise f w, s.samePorts_raise f w, rfl⟩

/-- A faulted core steps only to serve a port, which leaves all but the queue and the pins. -/
theorem StepEffect.frame_of_faulted (e : StepEffect s t) (hf : s.fault = true) :
    SameCore s t ∧ SameFaultRecord s t ∧ SameEnvironment s t ∧ t.k = s.k ∧ t.out = s.out ∧
      t.instrDone = s.instrDone ∧ t.lockReq = s.lockReq ∧ t.portUses = s.portUses.tail := by
  cases e with
  | alu mode a b rest pending | un fn a rest pending =>
    exact ⟨⟨rfl, rfl, rfl, rfl, rfl⟩, ⟨rfl, rfl, rfl⟩, ⟨rfl, rfl, rfl⟩, rfl, rfl, rfl, rfl, by rw [pending]; rfl⟩
  | idle free running => cases running.symm.trans hf
  | badWord w d presents | run w i u presents =>
    obtain ⟨-, running, -⟩ := presents
    cases running.symm.trans hf

/-! ### The truth of the fault record -/

/-- Whether the record is true depends on the record, the capacity and `sp` alone. -/
theorem State.FaultRecordTrue.congr (h : s.FaultRecordTrue) (hrec : SameFaultRecord s t)
    (hwords : t.memWords = s.memWords) (hsp : t.sp = s.sp) : t.FaultRecordTrue := by
  obtain ⟨hfault, hcause, hfinstr⟩ := hrec
  simpa only [State.FaultRecordTrue, hfault, hcause, hfinstr, hwords, hsp] using h

/-- While FAULT is 0 a true record is all zeros, whatever `sp` is. -/
theorem State.FaultRecordTrue.of_running (h : s.FaultRecordTrue) (hf : s.fault = false) (hrec : SameFaultRecord s t) :
    t.FaultRecordTrue := by
  obtain ⟨hfault, hcause, hfinstr⟩ := hrec
  obtain ⟨-, hzero, hnone⟩ | ⟨hfaulted, -⟩ | ⟨hfaulted, -⟩ | ⟨hfaulted, -⟩ := h
  · exact .inl ⟨hfault.trans hf, hcause.trans hzero, hfinstr.trans hnone⟩
  all_goals cases hf.symm.trans hfaulted

theorem State.FaultsOn.faultRecordTrue (h : s.FaultsOn w f) : (s.raise f w).FaultRecordTrue := by
  cases h with
  | badWord d bad =>
    cases d with
    | illegalInstruction => exact .inr (.inl ⟨rfl, rfl, bad⟩)
    | invalidRegisterIndex => exact .inr (.inr (.inl ⟨rfl, rfl, bad⟩))
  | popOutside decodes outside => exact .inr (.inr (.inr ⟨rfl, rfl, outside, _, decodes⟩))

/-! ### Words and instructions that are not legal -/

theorem step_badWord {d : DecodeFault} (presents : s.Presents w) (bad : decode w = .error d) :
    ∃ t, step s = .next t ∧ FaultTaken (causeCode (decodeFaultCause d)) w s t ∧ SameEnvironment s t ∧ SamePorts s t ∧
      t.k = s.k + 1 :=
  ⟨_, step_of_stepEffect (.badWord w d presents bad), s.advance_raise_frame _ w⟩

theorem decode_shape_r_invalid {op : Opcode} (hop : opField w = opcodeNumber op) (hshape : opcodeShape op = .r)
    (hra : 8 ≤ (raField w).toNat) :
    decode w = .error (if rbField w = 0#4 ∧ immField w = 0#16 then .invalidRegisterIndex else .illegalInstruction) := by
  rw [decode_shape_r (by rw [hop, opcodeOf_opcodeNumber]) hshape, if_neg (Nat.not_le.mpr hra)]
  split <;> rfl

theorem RegField.wf_eq_false_iff (r : RegField) : RegField.wf r = false ↔ 8 ≤ r.toNat := by
  rw [RegField.wf, decide_eq_false_iff_not, Nat.not_lt]

/-- An ill-formed instruction is a core instruction, and `exec` raises InvalidRegisterIndex with its word (log 13). -/
theorem exec_of_not_wellFormed (hbad : i.wellFormed = false) (s : State) :
    ∃ w, encode i = .word w ∧ exec i s = .next (s.raise .invalidRegisterIndex w) := by
  cases i with
  | mov r | push r | pop r => exact ⟨_, rfl, withReg_invalid _ ((RegField.wf_eq_false_iff r).mp hbad) s _⟩
  | add r q | sub r q | xchg r q | cmpxchg r q =>
    rw [Instr.wellFormed, Bool.and_eq_false_iff, RegField.wf_eq_false_iff, RegField.wf_eq_false_iff] at hbad
    exact ⟨_, rfl, withRegs_invalid _ hbad s _⟩
  | _ => cases hbad

end

/-! ### The obligations -/

/-- Settles O38: a faulted core keeps record, capacity and `sp`; any other step keeps the zeros or takes a fault. -/
theorem everyStepKeepsTheFaultRecordTrue : Obligations.EveryStepKeepsTheFaultRecordTrue := by
  intro s t htrue hstep
  have effect := stepEffect_of_step hstep
  cases hf : s.fault with
  | true =>
    obtain ⟨⟨-, hsp, -⟩, hrec, ⟨hwords, -⟩, -⟩ := effect.frame_of_faulted hf
    exact htrue.congr hrec hwords hsp
  | false =>
    obtain hsame | ⟨w, f, -, faults, rfl⟩ := effect.sameFaultRecord_or_faults
    · exact htrue.of_running hf hsame
    · exact faults.faultRecordTrue

/-- Settles O32: `exec` of an ill-formed instruction is the fault entry, whichever operand is bad. -/
theorem badRegisterOperandFaults : Obligations.BadRegisterOperandFaults := by
  intro i s hbad
  obtain ⟨w, hword, hexec⟩ := exec_of_not_wellFormed hbad s
  exact ⟨w, _, hword, hexec, s.faultTaken_raise _ w, s.sameEnvironment_raise _ w, s.samePorts_raise _ w, rfl⟩

/-- Settles O33: the fault entry with the cause of each decode fault. -/
theorem undecodableWordTakesItsFault : Obligations.UndecodableWordTakesItsFault :=
  fun _ _ presents => ⟨step_badWord presents, step_badWord presents⟩

/-- Settles O34: such a word does not decode, so the guards of PUSH and POP are never reached. -/
theorem decodeFaultsComeBeforeGuards : Obligations.DecodeFaultsComeBeforeGuards := by
  intro s w presents hop hra
  have bad : decode w =
      .error (if rbField w = 0#4 ∧ immField w = 0#16 then .invalidRegisterIndex else .illegalInstruction) := by
    obtain hpush | hpop := hop
    · exact decode_shape_r_invalid (op := .push) hpush rfl hra
    · exact decode_shape_r_invalid (op := .pop) hpop rfl hra
  obtain ⟨t, hstep, ⟨hfault, hcause, -, -, hcore⟩, -⟩ := step_badWord presents bad
  refine ⟨t, hstep, hcore, hfault, hcause.trans ?_⟩
  split <;> rfl

/-- Settles O35: FAULT can only have become 1 by the fault entry, of the word presented. -/
theorem faultsArePrecise : Obligations.FaultsArePrecise := by
  intro s t hstep hf hfaulted
  obtain ⟨hsame, -⟩ | ⟨w, f, ⟨-, -, hw⟩, -, rfl⟩ := (stepEffect_of_step hstep).sameFaultRecord_or_faults
  · cases hf.symm.trans (hsame.symm.trans hfaulted)
  · obtain ⟨taken, henv, -⟩ := s.advance_raise_frame f w
    have hcause : causeCode f = 1#8 ∨ causeCode f = 2#8 ∨ causeCode f = 3#8 := by cases f <;> decide
    exact ⟨hw, hcause, taken, henv, rfl⟩

/-- Settles O36: with a use pending there is a step, and a faulted core's step only serves it. -/
theorem faultedCoreTakesNoStep : Obligations.FaultedCoreTakesNoStep := by
  refine fun s hf => ⟨fun hp => step_halted hp hf, fun hp => ?_⟩
  obtain ⟨t, effect⟩ := exists_stepEffect fun hnone => absurd hnone hp
  exact ⟨t, step_of_stepEffect effect, effect.frame_of_faulted hf⟩

end Sys2Proof.Machine
end

section
/-!
Safe runs (60_exceptions R201, 70_reset_and_hazards R237, R239): safety of a state is kept by every step and leaves no
fault to take (O47), a script of safe words is worked off word by word (O48), and at its end the core idles (O51).
-/

namespace Sys2Proof.Machine

section
variable {s t u : State} {i : Instr} {w : InstrWord}

/-! ### Safety, step by step -/

theorem State.Safe.safeWord_of_presents (h : s.Safe) (presents : s.Presents w) : safeWord s.memWords w = true := by
  obtain ⟨-, -, -, hscript⟩ := h
  obtain ⟨-, -, hw⟩ := presents
  exact List.all_eq_true.mp hscript w (List.mem_of_getElem? hw)

theorem not_safeWord_of_decode_error {words : Nat} {d : DecodeFault} (bad : decode w = .error d) :
    safeWord words w = false := by
  simp only [safeWord, bad]

theorem le_of_safeWord_jmp {words : Nat} {a : Word} (hsafe : safeWord words w = true)
    (decodes : decode w = .ok (.jmp a)) : a.toNat ≤ words := by
  simpa only [safeWord, decodes, decide_eq_true_eq] using hsafe

theorem State.Safe.advance (h : s.Safe) : s.advance.Safe := by
  simpa only [State.Safe, State.CapacityOk, State.advance_fault, State.advance_sp, State.advance_memWords,
    State.advance_script] using h

/-- The instruction of a safe word takes a safe state to a safe one: only PUSH, POP and JMP move `sp`, and a POP above
the memory would need `sp` out of its range. -/
theorem CoreEffect.safe (e : CoreEffect s i u) (h : s.Safe) (hword : safeWord s.memWords w = true)
    (decodes : decode w = .ok i) : u.Safe := by
  obtain ⟨hfault, hsp, hcap, hscript⟩ := h
  cases e with
  | jmp a => exact ⟨hfault, le_of_safeWord_jmp hword decodes, hcap, hscript⟩
  | push r room =>
    have hmax : s.memWords ≤ 65535 := hcap.2
    have hsp' : (s.sp + 1#16).toNat ≤ s.memWords := by bv_omega
    exact ⟨hfault, hsp', hcap, hscript⟩
  | pop r some inside =>
    have hsp' : (s.sp - 1#16).toNat ≤ s.memWords := by bv_omega
    exact ⟨hfault, hsp', hcap, hscript⟩
  | popOutside r some outside => exact absurd hsp outside.not_ge
  | _ => exact ⟨hfault, hsp, hcap, hscript⟩

theorem StepEffect.safe (e : StepEffect s t) (h : s.Safe) : t.Safe := by
  cases e with
  | alu => exact h
  | un => exact h
  | idle => exact h
  | badWord w d presents bad =>
    cases (h.safeWord_of_presents presents).symm.trans (not_safeWord_of_decode_error bad)
  | run w i u presents decodes effect => exact (effect.safe h (h.safeWord_of_presents presents) decodes).advance

/-- A core that is not faulted has a step, and the step keeps it safe. -/
theorem State.Safe.exists_stepEffect (h : s.Safe) : ∃ t, StepEffect s t ∧ t.Safe := by
  have ⟨hf, _⟩ := h
  obtain ⟨t, effect⟩ := Machine.exists_stepEffect fun _ => hf
  exact ⟨t, effect, effect.safe h⟩

/-! ### A script of safe words -/

/-- A safe state from which every step of the core completes: every request granted, no port use pending. -/
structure State.RunsFreely (s : State) : Prop where
  safe : s.Safe
  granted : s.AlwaysGranted
  free : s.portUses = []

theorem State.AlwaysGranted.lockGranted (h : s.AlwaysGranted) : s.lockGranted = true := by
  obtain ⟨hlisted, hrest⟩ := h
  rw [State.lockGranted_eq]
  cases hlist : s.lockGnts with
  | nil => exact hrest
  | cons g gs => exact List.all_eq_true.mp hlisted g (hlist ▸ List.mem_cons_self)

theorem State.AlwaysGranted.takeLockAnswer (h : s.AlwaysGranted) : s.takeLockAnswer.AlwaysGranted := by
  obtain ⟨hlisted, hrest⟩ := h
  rw [List.all_eq_true] at hlisted
  exact ⟨List.all_eq_true.mpr fun g hg => hlisted g (List.mem_of_mem_tail hg), hrest⟩

theorem CoreEffect.alwaysGranted (e : CoreEffect s i u) (h : s.AlwaysGranted) : u.AlwaysGranted := by
  cases e with
  | lockGranted | lockHeld => exact h.takeLockAnswer
  | _ => exact h

/-- Only a LOCK that is not granted does not complete its step. -/
theorem CoreEffect.instrDone_eq (e : CoreEffect s i u) (h : s.AlwaysGranted) : u.instrDone = true := by
  cases e with
  | lockHeld held => cases held.symm.trans h.lockGranted
  | _ => rfl

theorem CoreEffect.portUses_eq (e : CoreEffect s i u) : u.portUses = s.portUses := by
  cases e <;> rfl

/-- Before the script's end a step completes one word and the next one may follow. -/
theorem State.RunsFreely.exists_step (h : s.RunsFreely) (hk : s.k < s.script.length) :
    ∃ t, step s = .next t ∧ t.RunsFreely ∧ t.k = s.k + 1 ∧ t.script = s.script := by
  obtain ⟨t, effect, hsafe⟩ := h.safe.exists_stepEffect
  refine ⟨t, step_of_stepEffect effect, ?_⟩
  cases effect with
  | alu mode a b rest pending => cases h.free.symm.trans pending
  | un fn a rest pending => cases h.free.symm.trans pending
  | idle free running ended => exact absurd hk (List.getElem?_eq_none_iff.mp ended).not_gt
  | badWord w d presents bad => cases hsafe.1
  | run w i u presents decodes effect =>
    obtain ⟨-, hscript, -⟩ := effect.sameEnvironment
    have hgranted : u.advance.AlwaysGranted := by
      simpa only [State.AlwaysGranted, State.advance_lockGnts, State.advance_lockGntRest] using
        effect.alwaysGranted h.granted
    have hfree : u.advance.portUses = [] := u.advance_portUses.trans (effect.portUses_eq.trans h.free)
    have hk : u.advance.k = s.k + 1 := by
      rw [State.advance_k, effect.instrDone_eq h.granted, if_pos rfl, effect.k_eq]
    exact ⟨⟨hsafe, hgranted, hfree⟩, hk, u.advance_script.trans hscript⟩

/-- As many words are worked off as steps are taken, up to the script's end. -/
theorem State.RunsFreely.run {n : Nat} (h : s.RunsFreely) (hn : s.k + n ≤ s.script.length) :
    ∃ t : State, core.run n s = .next t ∧ t.RunsFreely ∧ t.k = s.k + n ∧ t.script = s.script := by
  induction n generalizing s with
  | zero => exact ⟨s, rfl, h, rfl, rfl⟩
  | succ n ih =>
    obtain ⟨t, hstep, ht, hk, hscript⟩ := h.exists_step (by omega)
    obtain ⟨u, hrun, hu, hk', hscript'⟩ := ih ht (by rw [hk, hscript]; omega)
    exact ⟨u, (core_run_succ hstep n).trans hrun, hu, by omega, hscript'.trans hscript⟩

end

/-! ### The obligations -/

/-- Settles O47: safety gives the step and is kept by it. -/
theorem safeStatesStepToSafeStates : Obligations.SafeStatesStepToSafeStates := by
  intro s hsafe
  obtain ⟨t, effect, hsafe'⟩ := hsafe.exists_stepEffect
  exact ⟨t, step_of_stepEffect effect, hsafe'⟩

/-- Settles O48: after `m` steps the sequencer stands at word `m` of the same script, and FAULT is 0. -/
theorem safeScriptsEndAfterTheirLength : Obligations.SafeScriptsEndAfterTheirLength := by
  intro s hsafe hgranted hfree hk m hm
  obtain ⟨t, hrun, ht, hkt, hscript⟩ := State.RunsFreely.run ⟨hsafe, hgranted, hfree⟩ (n := m) (by omega)
  obtain ⟨hf, -⟩ := ht.safe
  have hkm : t.k = m := by omega
  refine ⟨t, hrun, hkm, ?_⟩
  rw [State.RunEnded, hscript, hkm, and_iff_left hf]
  exact ⟨fun hend => le_antisymm hm hend, fun heq => heq.ge⟩

/-- Settles O51: past its end the script presents nothing. -/
theorem coreIdlesAtTheScriptsEnd : Obligations.CoreIdlesAtTheScriptsEnd := by
  intro s hfree hf hend
  exact ⟨_, step_of_stepEffect (.idle hfree hf (List.getElem?_eq_none hend)), ⟨rfl, rfl, rfl, rfl, rfl⟩,
    SameElsewhere.refl s, rfl, rfl, rfl⟩

end Sys2Proof.Machine
end

section
/-!
The host's moves (60_exceptions R224, 70_reset_and_hazards R230): everything a move can do, said once; that each keeps the
invariant (O9); what none of them touches (O10); and what reset leaves (O7).
-/

namespace Sys2Proof.Machine

/-- `HostEffect s m t`: the move `m` of the host takes `s` to `t`. -/
inductive HostEffect (s : State) : HostMove → State → Prop
  | reset (regs : Vector Word Config.nregs) (mem : Memory) (contents : memContents s.memWords mem = true) :
      HostEffect s (.reset regs mem) (s.applyReset regs mem)
  | presetReg (r : Fin 8) (v : Word) : HostEffect s (.presetReg r v) (s.writeReg r v)
  | presetSp (v : Word) : HostEffect s (.presetSp v) (s.writeSp v)
  | presetFlags (z c : Bit) : HostEffect s (.presetFlags z c) (s.presetFlags z c)
  | presetMem (a : Nat) (v : Word) (inside : a < s.memWords) : HostEffect s (.presetMem a v) (s.writeMem a v)
  | present (words : List InstrWord) : HostEffect s (.present words) { s with script := words, k := 0 }
  | usePort (u : PortUse) : HostEffect s (.usePort u) { s with portUses := s.portUses ++ [u] }
  | answerLock (answers : List Bit) (rest : Bit) :
      HostEffect s (.answerLock answers rest) { s with lockGnts := answers, lockGntRest := rest }

section
variable {s t : State} {m : HostMove}

theorem hostEffect_of_hostMove (h : hostMove m s = some t) : HostEffect s m t := by
  cases m <;>
    simp only [hostMove, Option.ite_none_left_eq_some, Option.ite_none_right_eq_some, Option.some.injEq] at h
  case reset regs mem =>
    obtain ⟨contents, rfl⟩ := h
    exact .reset regs mem contents
  case presetReg r v =>
    obtain ⟨-, rfl⟩ := h
    exact .presetReg r v
  case presetSp v =>
    obtain ⟨-, rfl⟩ := h
    exact .presetSp v
  case presetFlags z c =>
    obtain ⟨-, rfl⟩ := h
    exact .presetFlags z c
  case presetMem a v =>
    obtain ⟨hguard, rfl⟩ := h
    simp only [Bool.or_eq_true, decide_eq_true_eq, not_or, Nat.not_le] at hguard
    obtain ⟨-, inside⟩ := hguard
    exact .presetMem a v inside
  case present words =>
    obtain ⟨-, rfl⟩ := h
    exact .present words
  case usePort u =>
    subst h
    exact .usePort u
  case answerLock answers rest =>
    subst h
    exact .answerLock answers rest

theorem State.Inv.present (h : s.Inv) (words : List InstrWord) : State.Inv { s with script := words, k := 0 } := by
  obtain ⟨hcap, hmem, hrec, hnote, hlock, -⟩ := h
  exact ⟨hcap, hmem, hrec, hnote, hlock, Nat.zero_le _⟩

theorem HostEffect.inv (e : HostEffect s m t) (h : s.Inv) : t.Inv := by
  cases e with
  | reset regs mem contents =>
    obtain ⟨hcap, -⟩ := h
    exact hcap.inv_applyReset regs mem contents
  | presetReg r v => exact h.writeReg r v
  | presetSp v => exact h.writeSp v
  | presetMem a v inside => exact h.writeMem inside v
  | present words => exact h.present words
  | presetFlags | usePort | answerLock => exact h

theorem HostEffect.memWords_eq (e : HostEffect s m t) : t.memWords = s.memWords := by
  cases e <;> rfl

theorem HostEffect.sameFaultRecord (e : HostEffect s m t) (hreset : ∀ regs mem, m ≠ .reset regs mem) :
    SameFaultRecord s t := by
  cases e with
  | reset regs mem => exact absurd rfl (hreset regs mem)
  | _ => exact ⟨rfl, rfl, rfl⟩

theorem HostEffect.sameFlags (e : HostEffect s m t) (hreset : ∀ regs mem, m ≠ .reset regs mem)
    (hflags : ∀ z c, m ≠ .presetFlags z c) : SameFlags s t := by
  cases e with
  | reset regs mem => exact absurd rfl (hreset regs mem)
  | presetFlags z c => exact absurd rfl (hflags z c)
  | _ => exact ⟨rfl, rfl⟩

end

/-! ### The obligations -/

/-- Settles O9: each of the host's effects keeps the invariant. -/
theorem hostMovesKeepTheInvariant : Obligations.HostMovesKeepTheInvariant :=
  fun _ _ _ hinv hmove => (hostEffect_of_hostMove hmove).inv hinv

/-- Settles O10: by the frame of the host's effects. -/
theorem hostMovesLeaveTheFaultRecordAndCapacity : Obligations.HostMovesLeaveTheFaultRecordAndCapacity := by
  intro m s t hmove
  have effect := hostEffect_of_hostMove hmove
  exact ⟨effect.memWords_eq, fun hreset => ⟨effect.sameFaultRecord hreset, effect.sameFlags hreset⟩⟩

/-- Settles O7: with memory contents that are some, the move is `State.applyReset`. -/
theorem resetPutsEveryFieldAtItsValue : Obligations.ResetPutsEveryFieldAtItsValue :=
  fun _ _ _ hmem => ⟨_, if_pos hmem, rfl, rfl, rfl, rfl, rfl, rfl, rfl, rfl, rfl, rfl, rfl, rfl, rfl⟩

end Sys2Proof.Machine
end
